-- ==== Sys2Proof/Word.lean ====
section
/-! DEFINITION. The word types of the QFB: bytes of the frame buffer and of the streams, 16-bit frame
fields and registers, 32-bit host registers and command words (10_state.md R13, R14). -/

namespace Sys2Proof

/-- One byte: an element of FBUF, of the input streams and of the output stream (R13, R33). -/
abbrev Byte := BitVec 8

/-- A 16-bit value: a frame field, the CRC state, an index, a length (R7, R13). -/
abbrev Half := BitVec 16

/-- A 32-bit host register or command word (R14, R49). -/
abbrev Word := BitVec 32

end Sys2Proof
end

