-- ==== Sys2Proof/Syntax.lean ====
section
/-! DEFINITION. The QFB's commands (30_encoding.md R52), its opcodes and formats by name (R50), and the host
transactions (R55). A host program is a list of transactions; a command reaches the block as a write to CMD. -/

namespace Sys2Proof

/-- The fifteen opcodes of the opcode map (R52), by name. -/
inductive Op where
  | nop | crcInit | crcStep | crcBulk | bufSetptr | bufWrite | bufRead | frmEncode | frmDecode
  | txStart | txByte | rxStart | rxByte | rxEnd | abort
  deriving DecidableEq, Repr

/-- The three command formats (R50): no operand, a byte operand, a 16-bit operand. -/
inductive Format where
  | n | b | h
  deriving DecidableEq, Repr

/-- The QFB's commands, one constructor per row of the opcode table (R52). Operands are the unsigned fields B
and H of the command word (R51); every other operand is read from a register (R34). -/
inductive Instr where
  /-- `NOP` (R93). -/
  | nop
  /-- `CRC_INIT` (R64). -/
  | crcInit
  /-- `CRC_STEP b` (R65). -/
  | crcStep (b : Byte)
  /-- `CRC_BULK n` (R66). -/
  | crcBulk (n : Half)
  /-- `BUF_SETPTR a` (R67). -/
  | bufSetptr (a : Half)
  /-- `BUF_WRITE b` (R68). -/
  | bufWrite (b : Byte)
  /-- `BUF_READ` (R69). -/
  | bufRead
  /-- `FRM_ENCODE` (R76). -/
  | frmEncode
  /-- `FRM_DECODE` (R77). -/
  | frmDecode
  /-- `TX_START` (R80). -/
  | txStart
  /-- `TX_BYTE b` (R81). -/
  | txByte (b : Byte)
  /-- `RX_START` (R88). -/
  | rxStart
  /-- `RX_BYTE b` (R89). -/
  | rxByte (b : Byte)
  /-- `RX_END` (R90). -/
  | rxEnd
  /-- `ABORT` (R94). -/
  | abort
  deriving DecidableEq, Repr

/-- What can happen to the block from outside, one at a time (R55, R115). Offsets of the register window are
0x00 to 0xFF (R14, R37); transactions are 32 bits wide and no other width exists (R42). -/
inductive Txn where
  /-- `RD off`: a 32-bit register read (R95). -/
  | rd (off : Byte)
  /-- `WR off, v`: a 32-bit register write (R96); `WR CMD, w` issues the command word `w` (R55). -/
  | wr (off : Byte) (v : Word)
  /-- The platform asserts the block's one reset between two transactions (R113; DESIGN CHOICE, assumption log 2). -/
  | reset
  deriving DecidableEq, Repr

/-- The named registers of the register window (R14). -/
inductive RegName where
  | cmd | status | config | crc | bptr | bufData | txIndex | txLength | txTotal | txRemain
  | rxIndex | rxLength | rxCrc | expected | fcount
  deriving DecidableEq, Repr

/-- One line of a host program (R56), as syntax: a command with its written operand, which may be out of range,
or a register transaction by register name (DESIGN CHOICE, assumption log 10). -/
inductive AsmLine where
  | command (op : Op) (imm : Option Nat)
  | write (r : RegName) (imm : Nat)
  | read (r : RegName)
  deriving DecidableEq, Repr

end Sys2Proof
end

