-- ==== Sys2Proof/WellFormed.lean ====
section
/-! DEFINITION. Well-formedness. An `Instr` carries its operands at the widths of R51, so every `Instr` is
well formed; what can be ill formed is a 32-bit command word (30_encoding.md R50, R52, R54), and a line of a
host program whose written operand has no place or no range in its format (R56). -/

namespace Sys2Proof

/-- The match and mask columns of the opcode map, row by row as R52 prints them. -/
def opcodeRows : List (Word × Word) :=
  [ (0x00000000, 0xFFFFFFFF), (0x00000010, 0xFFFFFFFF), (0x00000011, 0xFFFF00FF),
    (0x00000012, 0x0000FFFF), (0x00000020, 0x0000FFFF), (0x00000021, 0xFFFF00FF),
    (0x00000022, 0xFFFFFFFF), (0x00000030, 0xFFFFFFFF), (0x00000031, 0xFFFFFFFF),
    (0x00000040, 0xFFFFFFFF), (0x00000041, 0xFFFF00FF), (0x00000050, 0xFFFFFFFF),
    (0x00000051, 0xFFFF00FF), (0x00000052, 0xFFFFFFFF), (0x00000060, 0xFFFFFFFF) ]

/-- A command word is well formed when it is some row's match under that row's mask (R52, R53); every other
word is illegal (R54). -/
def wordWellFormed (w : Word) : Bool := opcodeRows.any fun r => w &&& r.2 == r.1

/-- The format of each opcode as the assembler's user writes it (R52, R56). -/
def Op.writtenFormat : Op → Format
  | .crcStep | .bufWrite | .txByte | .rxByte => .b
  | .crcBulk | .bufSetptr => .h
  | .nop | .crcInit | .bufRead | .frmEncode | .frmDecode | .txStart | .rxStart | .rxEnd | .abort => .n

/-- The operand R56 asks of each format: none, a number 0 to 255, a number 0 to 65535. -/
def Format.takes : Format → Option Nat → Bool
  | .n, none => true
  | .n, some _ => false
  | .b, some k => k < 256
  | .b, none => false
  | .h, some k => k < 65536
  | .h, none => false

/-- A line of a host program is well formed when its operand is in range: "an operand out of range is an
assembly error, not a word" (R56). -/
def AsmLine.wellFormed : AsmLine → Bool
  | .command op imm => op.writtenFormat.takes imm
  | .write _ imm => imm < 4294967296
  | .read _ => true

end Sys2Proof
end

