-- ==== Sys2Proof/Decode.lean ====
section
/-! DEFINITION. The decoder of command words (30_encoding.md R49 to R54), total on all 32-bit words and refusing
by name, and the encoder of commands (R56), both from the same encoding tables. -/

namespace Sys2Proof

/-- The OP column of the opcode map (R52). -/
def Op.code : Op → Byte
  | .nop => 0x00
  | .crcInit => 0x10
  | .crcStep => 0x11
  | .crcBulk => 0x12
  | .bufSetptr => 0x20
  | .bufWrite => 0x21
  | .bufRead => 0x22
  | .frmEncode => 0x30
  | .frmDecode => 0x31
  | .txStart => 0x40
  | .txByte => 0x41
  | .rxStart => 0x50
  | .rxByte => 0x51
  | .rxEnd => 0x52
  | .abort => 0x60

/-- The format column of the opcode map (R52). -/
def Op.format : Op → Format
  | .nop => .n
  | .crcInit => .n
  | .crcStep => .b
  | .crcBulk => .h
  | .bufSetptr => .h
  | .bufWrite => .b
  | .bufRead => .n
  | .frmEncode => .n
  | .frmDecode => .n
  | .txStart => .n
  | .txByte => .b
  | .rxStart => .n
  | .rxByte => .b
  | .rxEnd => .n
  | .abort => .n

/-- The mask of fixed bits of each format (R50). -/
def Format.mask : Format → Word
  | .n => 0xFFFFFFFF
  | .b => 0xFFFF00FF
  | .h => 0x0000FFFF

/-- The opcode with a given OP value; `none` for a reserved value (R54). -/
def Op.ofCode? (c : Byte) : Option Op :=
  [Op.nop, .crcInit, .crcStep, .crcBulk, .bufSetptr, .bufWrite, .bufRead, .frmEncode, .frmDecode,
    .txStart, .txByte, .rxStart, .rxByte, .rxEnd, .abort].find? fun op => op.code == c

/-- The command of an opcode with the fields B and H (R51). -/
def Op.instr : Op → Byte → Half → Instr
  | .nop, _, _ => .nop
  | .crcInit, _, _ => .crcInit
  | .crcStep, b, _ => .crcStep b
  | .crcBulk, _, h => .crcBulk h
  | .bufSetptr, _, h => .bufSetptr h
  | .bufWrite, b, _ => .bufWrite b
  | .bufRead, _, _ => .bufRead
  | .frmEncode, _, _ => .frmEncode
  | .frmDecode, _, _ => .frmDecode
  | .txStart, _, _ => .txStart
  | .txByte, b, _ => .txByte b
  | .rxStart, _, _ => .rxStart
  | .rxByte, b, _ => .rxByte b
  | .rxEnd, _, _ => .rxEnd
  | .abort, _, _ => .abort

/-- Why a word is refused; both reasons are reported as ERR_OPCODE (R53, R97). -/
inductive DecodeError where
  /-- The word's OP field is a reserved opcode (R54). -/
  | reservedOpcode (op : Byte)
  /-- The opcode is listed, and a bit that its format requires to be 0 is 1 (R50, R53). -/
  | mustBeZero (op : Op)
  deriving DecidableEq, Repr

/-- Field OP of a command word, bits 7..0 (R49). -/
def wordOp (w : Word) : Byte := w.extractLsb' 0 8

/-- Field B of a command word, bits 15..8 (R49). -/
def wordB (w : Word) : Byte := w.extractLsb' 8 8

/-- Field H of a command word, bits 31..16 (R49). -/
def wordH (w : Word) : Half := w.extractLsb' 16 16

/-- Decoding a command word, as the pseudocode of R53. -/
def decode (w : Word) : Except DecodeError Instr :=
  match Op.ofCode? (wordOp w) with
  | none => .error (.reservedOpcode (wordOp w))
  | some op =>
    if w &&& op.format.mask = op.code.setWidth 32 then .ok (op.instr (wordB w) (wordH w))
    else .error (.mustBeZero op)

/-- The opcode of a command. -/
def Instr.op : Instr → Op
  | .nop => .nop
  | .crcInit => .crcInit
  | .crcStep _ => .crcStep
  | .crcBulk _ => .crcBulk
  | .bufSetptr _ => .bufSetptr
  | .bufWrite _ => .bufWrite
  | .bufRead => .bufRead
  | .frmEncode => .frmEncode
  | .frmDecode => .frmDecode
  | .txStart => .txStart
  | .txByte _ => .txByte
  | .rxStart => .rxStart
  | .rxByte _ => .rxByte
  | .rxEnd => .rxEnd
  | .abort => .abort

/-- The B field of a command; 0 where its format has none (R49). -/
def Instr.fieldB : Instr → Byte
  | .crcStep b => b
  | .bufWrite b => b
  | .txByte b => b
  | .rxByte b => b
  | .nop | .crcInit | .crcBulk _ | .bufSetptr _ | .bufRead | .frmEncode | .frmDecode | .txStart | .rxStart
  | .rxEnd | .abort => 0

/-- The H field of a command; 0 where its format has none (R49). -/
def Instr.fieldH : Instr → Half
  | .crcBulk n => n
  | .bufSetptr a => a
  | .nop | .crcInit | .crcStep _ | .bufWrite _ | .bufRead | .frmEncode | .frmDecode | .txStart | .txByte _
  | .rxStart | .rxByte _ | .rxEnd | .abort => 0

/-- The assembled word `zext_32(OP) | (B << 8) | (H << 16)` (R56). -/
def assembleWord (op : Byte) (b : Byte) (h : Half) : Word :=
  op.setWidth 32 ||| (b.setWidth 32 <<< 8) ||| (h.setWidth 32 <<< 16)

/-- The command word of a command (R56). -/
def encode (i : Instr) : Word := assembleWord i.op.code i.fieldB i.fieldH

/-- The instruction the decoder reads from the low `nbits` bits of `w`; a command word is 32 bits (R49), so a
number that needs more is no command word. -/
def decodeTableWord (nbits w : Nat) : Option Instr :=
  if w % 2 ^ nbits < 2 ^ 32 then (decode (BitVec.ofNat 32 (w % 2 ^ nbits))).toOption else none

end Sys2Proof
end

