-- ==== Sys2Proof/Config.lean ====
section
/-! DEFINITION. What an implementation fixes: the constants of 00_scope.md R7, the three OPEN parameters of
R8, and the free draws of the frame buffer's bytes at a reset (10_state.md R32). -/

namespace Sys2Proof

/-- `CRC_INIT`, the seed of every whole-buffer checksum (R7, R58). -/
def Config.crcInit : Half := 0xFFFF

/-- `HDR_BYTES`: index (2) and declared_length (2) (R7, R70). -/
def Config.hdrBytes : Nat := 4

/-- `OVERHEAD`: the header and the two checksum bytes (R7, R9). -/
def Config.overhead : Nat := 6

/-- `MAX_FRAMES`: the largest number of frames of one encode session (R7, R80). -/
def Config.maxFrames : Nat := 65536

/-- `FRAME_SIZE_DEFAULT` (R7, R19). -/
def Config.frameSizeDefault : Half := 1024

/-- `FRAME_SIZE_MIN` (R7, R9, R100). -/
def Config.frameSizeMin : Nat := 7

/-- The implementation parameters of R8, which "a model takes as an argument". They are one plain value, fixed
for the machine: the state carries it and nothing ever writes it (DESIGN CHOICE, assumption log 1). -/
structure Config.Params where
  /-- `FBUF_SIZE`, the frame buffer's size in bytes. -/
  fbufSize : Nat
  /-- `CRC_POLY`, the generator polynomial without its x^16 term; bit i is the coefficient of x^i (R58). -/
  crcPoly : Half
  /-- `CRC_REFLECT`: `false` is 0, MSB-first; `true` is 1, LSB-first (R58). -/
  crcReflect : Bool
  deriving DecidableEq, Repr

/-- The ranges R8 gives the parameters: `1024 ≤ FBUF_SIZE ≤ 65535`, `CRC_POLY` nonzero with bit 0 set. -/
abbrev Config.Params.legal (p : Config.Params) : Prop :=
  1024 ≤ p.fbufSize ∧ p.fbufSize ≤ 65535 ∧ p.crcPoly ≠ 0 ∧ p.crcPoly.getLsbD 0 = true

/-- OPEN (R8, decision D7): by how much FBUF_SIZE exceeds 1024. No value is known of it. -/
opaque Config.fbufExtra : Fin 64512

/-- OPEN (R8, decision D9): bits 15..1 of CRC_POLY; bit 0 is 1. No value is known of it. -/
opaque Config.crcPolyHigh : BitVec 15

/-- OPEN (R8, decision D9): CRC_REFLECT. No value is known of it. -/
opaque Config.crcReflect : Bool

/-- FREE VALUE (R32, R113, decision D8): the draw of FBUF's byte `i` made by the reset number `epoch`.
No value is known of it (DESIGN CHOICE, assumption log 5). -/
opaque Config.fbufDraw (epoch i : Nat) : Byte

/-- The parameters of the machine that `State.reset` is: every choice R8 allows, and no other. -/
def Config.params : Config.Params :=
  { fbufSize := 1024 + Config.fbufExtra.val
    crcPoly := Config.crcPolyHigh ++ (1 : BitVec 1)
    crcReflect := Config.crcReflect }

/-- The default profile's parameters (R12, R58) with the buffer size the vectors of 95_test_vectors.md use. -/
def Config.defaultProfile : Config.Params := { fbufSize := 1024, crcPoly := 0x1021, crcReflect := false }

/-- The alternate profile of R58 (95_test_vectors.md), with the same buffer size. -/
def Config.alternateProfile : Config.Params := { fbufSize := 1024, crcPoly := 0x8005, crcReflect := true }

end Sys2Proof
end

