-- ==== Sys2Proof/Machine/State.lean ====
section
/-! DEFINITION. The QFB's state, all of 10_state.md R13, with the output stream (R33), the host's side of the
interface (R55, R115) and the parameters (00_scope.md R8); the reasons a step can stop; the state after reset
(70_reset_and_hazards.md R113). -/

namespace Sys2Proof.Machine

/-- `MODE` (R15). The value 3 is reserved and no rule produces it, so it has no constructor (DEDUCED, assumption
log 8). -/
inductive Mode where
  /-- 0: no session. -/
  | idle
  /-- 1: an encode session, the splitter is running. -/
  | tx
  /-- 2: a decode session, the reassembler is running. -/
  | rx
  deriving DecidableEq, Repr

/-- The result codes (R97). The codes 0xA to 0xF are reserved and no rule produces them (DEDUCED,
assumption log 8). -/
inductive Result where
  | ok | crcMismatch | errOpcode | errState | errBusy | errConfig | errRange | errLength | errCapacity | errAccess
  deriving DecidableEq, Repr

/-- `SEQ_MODE`, how an admitted frame updates EXPECTED (R19, R86). -/
inductive SeqMode where
  /-- 0: the reference behaviour, `EXPECTED <- index`. -/
  | pin
  /-- 1: the corrected behaviour, `EXPECTED <- index +16 1`. -/
  | advance
  deriving DecidableEq, Repr

/-- `PHASE` (R31): what the next byte of a decode session is. -/
inductive Phase where
  /-- 0: a frame byte. -/
  | frame
  /-- 1: the separator byte. -/
  | separator
  deriving DecidableEq, Repr

/-- The event records (R102). `frames` is 17 bits wide, the other fields 16. -/
inductive Event where
  | txFrame (index length : Half)
  | txDone (frames : BitVec 17)
  | rxAccept (index length : Half)
  | rxCrcFail (index stored computed : Half)
  | rxSeqReject (index expected : Half)
  | rxLenReject (index length : Half)
  | rxEnd (discarded : Half)
  deriving DecidableEq, Repr

/-- An item of the output stream (R33). -/
inductive Item where
  | data (b : Byte)
  | event (e : Event)
  deriving DecidableEq, Repr

/-- Why the machine stops. No rule of the spec stops the block (R98; 93_implementation_defined.md, opening), and
none of these is raised in a state that meets `Inv` (Safety.lean), which reset meets and every step keeps (DESIGN CHOICE,
assumption log 4). -/
inductive Fault where
  /-- Raised by TX_BYTE when MODE = TX and the sequencing registers are outside the ranges R9, R26 and R31 give
  them in an encode session: FRAME_SIZE invalid, FCOUNT not below P, or TX_REMAIN = 0. Safe: R81 gives no effect
  there (FBUF is undefined out of range, R11; numbers are naturals, R10), and no run reaches such a state. -/
  | encodeSessionOutOfRange
  /-- Raised by RX_BYTE when MODE = RX, PHASE = 0 and the sequencing registers are outside the ranges R9 and R31
  give them in a decode session: FRAME_SIZE invalid, or FCOUNT not below FRAME_SIZE. Safe, as above. -/
  | decodeSessionOutOfRange
  deriving DecidableEq, Repr

/-- Why an instruction is refused. An illegal command word is no refusal: it completes with ERR_OPCODE (R54). -/
inductive Refusal where
  /-- Raised by an arm of `exec` whose instruction has no meaning yet. No arm raises it. Safe: the model says
  nothing of the instruction. -/
  | notModelled (mnemonic : String)
  deriving DecidableEq, Repr

/-- The machine. Fields are named after the registers and fields of R13. -/
@[ext]
structure State where
  /-- STATUS[5:4] (R15). -/
  mode : Mode
  /-- STATUS[3:0] (R16). -/
  result : Result
  /-- STATUS[6] (R17). -/
  lenOver : Bool
  /-- CONFIG[15:0] (R19). -/
  frameSize : Half
  /-- CONFIG[16] (R19): `false` strict, `true` skip-tolerant. -/
  allowSkip : Bool
  /-- CONFIG[17] (R19). -/
  seqMode : SeqMode
  /-- The CRC engine's state (R20). -/
  crc : Half
  /-- The frame buffer byte pointer (R21). -/
  bptr : Half
  /-- The byte the last successful BUF_READ read (R22). -/
  bufData : Byte
  /-- R23. -/
  txIndex : Half
  /-- R24. -/
  txLength : Half
  /-- R25. -/
  txTotal : Word
  /-- R26. -/
  txRemain : Word
  /-- R27. -/
  rxIndex : Half
  /-- R28. -/
  rxLength : Half
  /-- RX_CRC[15:0] (R29). -/
  rxStored : Half
  /-- RX_CRC[31:16] (R29). -/
  rxCalc : Half
  /-- The reassembler's expected index (R30). -/
  expected : Half
  /-- FCOUNT[15:0] (R31). -/
  fcount : Half
  /-- FCOUNT[16] (R31). -/
  phase : Phase
  /-- FBUF (R32): the bytes that differ from their reset draw, as cells with strictly rising addresses
  (DESIGN CHOICE, assumption log 6). -/
  fbuf : List Host.Cell
  /-- FREE VALUE (R32, R124): the bytes the last reset drew for FBUF, byte 0 first. Only a reset writes it (DESIGN
  CHOICE, assumption log 5). -/
  draw : List Byte
  /-- The output stream, oldest item first (R33). It is not block state: the block appends and reads nothing. -/
  out : List Item
  /-- The model's own: the transactions the host is going to issue, next first (R45, R55, R115; DESIGN
  CHOICE, assumption log 3). -/
  host : List Txn
  /-- The model's own: the values the host's register reads returned, oldest first (R95, R115; DESIGN CHOICE,
  assumption log 7). -/
  reads : List Word
  /-- The implementation parameters (R8). Nothing writes them. -/
  params : Config.Params
  /-- The model's own: how many resets came after the first; it picks the draws of the next one (R113; DESIGN
  CHOICE, assumption log 2). -/
  resets : Nat
  deriving DecidableEq, Repr

/-- The free draws of reset number `epoch` for a buffer of `size` bytes (R32, R113). -/
def resetDraw (epoch size : Nat) : List Byte := (List.range size).map (Config.fbufDraw epoch)

/-- The machine right after its first reset (R113): the table's values, no FBUF byte written since, an output
stream with nothing in it, a host that has issued nothing. -/
def State.reset : State :=
  { mode := .idle
    result := .ok
    lenOver := false
    frameSize := Config.frameSizeDefault
    allowSkip := false
    seqMode := .pin
    crc := Config.crcInit
    bptr := 0
    bufData := 0
    txIndex := 0
    txLength := 0
    txTotal := 0
    txRemain := 0
    rxIndex := 0
    rxLength := 0
    rxStored := 0
    rxCalc := 0
    expected := 0
    fcount := 0
    phase := .frame
    fbuf := []
    draw := resetDraw 0 Config.params.fbufSize
    out := []
    host := []
    reads := []
    params := Config.params
    resets := 0 }

end Sys2Proof.Machine
end

