-- ==== Sys2Proof/Machine/Operands.lean ====
section
/-! DEFINITION. What commands compute their operands with: little-endian fields (00_scope.md R11, 20_memory.md
R39, R41), the payload capacity and the frame-size check (R9, 60_exceptions.md R100), the frame count (R78). -/

namespace Sys2Proof.Machine

/-- Bits 7..0, the byte that lies at the lower FBUF index (R39). -/
def loByte (v : Half) : Byte := v.extractLsb' 0 8

/-- Bits 15..8, the byte that lies at the higher FBUF index (R39). -/
def hiByte (v : Half) : Byte := v.extractLsb' 8 8

/-- `LE16(x, y) = x | (y << 8)` (R11). -/
def le16 (x y : Byte) : Half := x.setWidth 16 ||| (y.setWidth 16 <<< 8)

/-- The payload capacity `P = FRAME_SIZE - 6` (R9). -/
def capacity (frameSize : Half) : Nat := frameSize.toNat - Config.overhead

/-- `FRAME_SIZE_MIN ≤ FRAME_SIZE ≤ FBUF_SIZE` (R9, R100). -/
def frameSizeValid (p : Config.Params) (frameSize : Half) : Bool :=
  Config.frameSizeMin ≤ frameSize.toNat && frameSize.toNat ≤ p.fbufSize

/-- `ceil(a / b)` (R10). -/
def ceilDiv (a b : Nat) : Nat := (a + b - 1) / b

/-- The number of frames that `total` bytes need at capacity `cap` (R78). -/
def frameCount (total : Word) (cap : Nat) : Nat := ceilDiv total.toNat cap

/-- `P` of the state's CONFIG. -/
def State.capacity (s : State) : Nat := Machine.capacity s.frameSize

/-- The configuration check of R100 on the state's CONFIG. -/
def State.configValid (s : State) : Bool := frameSizeValid s.params s.frameSize

/-- The sequencing registers of an encode session are in the ranges R9, R26 and R31 give them. -/
def State.encodeSessionInRange (s : State) : Bool :=
  s.configValid && s.fcount.toNat < s.capacity && 0 < s.txRemain.toNat

/-- The sequencing registers of a decode session are in the ranges R9 and R31 give them. A separator byte
(PHASE = 1) uses none of them (R89). -/
def State.decodeSessionInRange (s : State) : Bool :=
  s.phase == .separator || (s.configValid && s.fcount.toNat < s.frameSize.toNat)

end Sys2Proof.Machine
end

