-- ==== Sys2Proof/Machine/Flags.lean ====
section
/-! DEFINITION. The status fields (10_state.md R15 to R18), their codes, and the words of the registers that
pack several fields (45_control.md R95). -/

namespace Sys2Proof.Machine

/-- STATUS[3:0] of each result (R97). -/
def Result.code : Result → BitVec 4
  | .ok => 0x0
  | .crcMismatch => 0x1
  | .errOpcode => 0x2
  | .errState => 0x3
  | .errBusy => 0x4
  | .errConfig => 0x5
  | .errRange => 0x6
  | .errLength => 0x7
  | .errCapacity => 0x8
  | .errAccess => 0x9

/-- The codes 0x2 to 0x9, the errors of R98; OK and the outcome CRC_MISMATCH are none. -/
def Result.isError : Result → Bool
  | .ok | .crcMismatch => false
  | .errOpcode | .errState | .errBusy | .errConfig | .errRange | .errLength | .errCapacity | .errAccess => true

/-- STATUS[5:4] of each mode (R15). -/
def Mode.code : Mode → BitVec 2
  | .idle => 0
  | .tx => 1
  | .rx => 2

/-- CONFIG[17] (R19). -/
def SeqMode.bit : SeqMode → BitVec 1
  | .pin => 0
  | .advance => 1

/-- The update mode that CONFIG[17] selects (R19). -/
def SeqMode.ofBit (b : Bool) : SeqMode := if b then .advance else .pin

/-- FCOUNT[16] (R31). -/
def Phase.bit : Phase → BitVec 1
  | .frame => 0
  | .separator => 1

/-- The kind code of an event record (R102). -/
def Event.kind : Event → Nat
  | .txFrame _ _ => 1
  | .txDone _ => 2
  | .rxAccept _ _ => 3
  | .rxCrcFail _ _ _ => 4
  | .rxSeqReject _ _ => 5
  | .rxLenReject _ _ => 6
  | .rxEnd _ => 7

/-- STATUS as it reads: `zext_32({LEN_OVER, MODE, RESULT})` (R95). -/
def State.statusWord (s : State) : Word :=
  (BitVec.ofBool s.lenOver ++ s.mode.code ++ s.result.code).setWidth 32

/-- CONFIG as it reads: `zext_32({SEQ_MODE, ALLOW_SKIP, FRAME_SIZE})` (R95). -/
def State.configWord (s : State) : Word :=
  (s.seqMode.bit ++ BitVec.ofBool s.allowSkip ++ s.frameSize).setWidth 32

/-- RX_CRC as it reads: `{RX_CALC, RX_STORED}` (R95). -/
def State.rxCrcWord (s : State) : Word := s.rxCalc ++ s.rxStored

/-- FCOUNT as it reads: `zext_32({PHASE, FCOUNT})` (R95). -/
def State.fcountWord (s : State) : Word := (s.phase.bit ++ s.fcount).setWidth 32

/-- LEN_OVER after a CheckFrame (R17, R75): the frame passed and its declared_length exceeds P. -/
def lenOverFlag (passed : Bool) (len : Half) (cap : Nat) : Bool := passed && cap < len.toNat

end Sys2Proof.Machine
end

