-- ==== Sys2Proof/Machine/Ops.lean ====
section
/-! DEFINITION. The named operations over the frame buffer, the output stream and RESULT, the acceptance table of
the modes (60_exceptions.md R99), and how a command reports an error. The QFB has no traps and so no trap
entry or return (R104): "the effect of every failure is rule R98", which is `State.fail`. -/

namespace Sys2Proof.Machine

/-- What a frame buffer byte reads as when nothing has changed it since the reset: its draw (R32). An index past
the draws is outside FBUF, where no command reads (R38; DESIGN CHOICE, assumption log 6). -/
def Memory.fresh (draw : List Byte) (i : Nat) : Byte := draw.getD i 0

/-- The cell listed at index `i`, if any. -/
def Memory.find? : List Host.Cell → Nat → Option Byte
  | [], _ => none
  | c :: m, i => if c.1 = i then some c.2 else Memory.find? m i

/-- `FBUF[i]` (R11). -/
def Memory.read (draw : List Byte) (m : List Host.Cell) (i : Nat) : Byte :=
  (Memory.find? m i).getD (Memory.fresh draw i)

/-- Lists byte `b` at index `i`, in its place in the rising order. -/
def Memory.put : List Host.Cell → Nat → Byte → List Host.Cell
  | [], i, b => [(i, b)]
  | c :: m, i, b =>
    if c.1 < i then c :: Memory.put m i b
    else if c.1 = i then (i, b) :: m
    else (i, b) :: c :: m

/-- Takes index `i` off the list. -/
def Memory.erase (m : List Host.Cell) (i : Nat) : List Host.Cell := m.filter fun c => c.1 != i

/-- `FBUF[i] <- b` (R11), keeping the canonical form. -/
def Memory.write (draw : List Byte) (m : List Host.Cell) (i : Nat) (b : Byte) : List Host.Cell :=
  if b = Memory.fresh draw i then Memory.erase m i else Memory.put m i b

/-- `FBUF[i], FBUF[i+1], … <-` the bytes of a sequence, in order. -/
def Memory.writeSeq (draw : List Byte) : List Host.Cell → Nat → List Byte → List Host.Cell
  | m, _, [] => m
  | m, i, b :: bs => Memory.writeSeq draw (Memory.write draw m i b) (i + 1) bs

/-- The canonical form: strictly rising addresses, and no cell equal to what an unlisted index reads as. -/
abbrev Memory.wf (draw : List Byte) (m : List Host.Cell) : Prop :=
  m.Pairwise (fun c d => c.1 < d.1) ∧ ∀ c ∈ m, c.2 ≠ Memory.fresh draw c.1

/-- `FBUF[i]` of a state. -/
def State.byteAt (s : State) (i : Nat) : Byte := Memory.read s.draw s.fbuf i

/-- The `n` bytes `FBUF[a .. a + n - 1]` (R11), empty when `n = 0`. -/
def State.bytesFrom (s : State) (a n : Nat) : List Byte := (List.range n).map fun k => s.byteAt (a + k)

/-- `FBUF[i] <- b`. -/
def State.setByte (s : State) (i : Nat) (b : Byte) : State := { s with fbuf := Memory.write s.draw s.fbuf i b }

/-- `FBUF[i], FBUF[i+1], … <- bs`. -/
def State.setBytes (s : State) (i : Nat) (bs : List Byte) : State :=
  { s with fbuf := Memory.writeSeq s.draw s.fbuf i bs }

/-- `CRC <- c`: the one CRC engine is shared by its users (R20, R119). -/
def State.setCrc (s : State) (c : Half) : State := { s with crc := c }

/-- `MODE <- m` (R15). -/
def State.setMode (s : State) (m : Mode) : State := { s with mode := m }

/-- `Emit` of several items in order (R11, R33). -/
def State.emit (s : State) (items : List Item) : State := { s with out := s.out ++ items }

/-- `result <- code` (R11, R16). -/
def State.setResult (s : State) (r : Result) : State := { s with result := r }

/-- A command or a register write ends with an error: its one effect is `RESULT <- code` (R98). -/
def State.fail (s : State) (r : Result) : State := s.setResult r

/-- A command completes: `result <- OK`. -/
def State.done (s : State) : State := s.setResult .ok

/-- In which modes a command is accepted: the rows of R99's table. -/
inductive Access where
  /-- NOP, ABORT. -/
  | always
  /-- The CRC, buffer and codec commands, TX_START and RX_START. -/
  | idleOnly
  /-- TX_BYTE. -/
  | txOnly
  /-- RX_BYTE, RX_END. -/
  | rxOnly
  deriving DecidableEq, Repr

/-- R99's table: the error of a command that the mode does not accept, `none` for "yes". -/
def Access.error? : Access → Mode → Option Result
  | .always, _ => none
  | .idleOnly, .idle => none
  | .idleOnly, .tx => some .errBusy
  | .idleOnly, .rx => some .errBusy
  | .txOnly, .idle => some .errState
  | .txOnly, .tx => none
  | .txOnly, .rx => some .errBusy
  | .rxOnly, .idle => some .errState
  | .rxOnly, .tx => some .errBusy
  | .rxOnly, .rx => none

/-- Runs a command's own rule where the mode accepts it, and fails with R99's code elsewhere. -/
def State.accepted (s : State) (a : Access) (run : State → State) : State :=
  match a.error? s.mode with
  | none => run s
  | some r => s.fail r

end Sys2Proof.Machine
end

