-- ==== Sys2Proof/Machine/Buffer.lean ====
section
/-! DEFINITION. Frame buffer access (41_buffer.md): BUF_SETPTR, BUF_WRITE, BUF_READ. -/

namespace Sys2Proof.Machine

/-- BPTR is in range of the frame buffer (R38). -/
def State.bptrInRange (s : State) : Bool := s.bptr.toNat < s.params.fbufSize

/-- BUF_SETPTR's own rule (R67): any value is stored. -/
def bufSetptr (a : Half) (s : State) : State := { s with bptr := a }.done

/-- BUF_WRITE's own rule (R68). -/
def bufWrite (b : Byte) (s : State) : State :=
  if s.bptrInRange then ({ s with bptr := s.bptr + 1 }.setByte s.bptr.toNat b).done
  else s.fail .errRange

/-- BUF_READ's own rule (R69). -/
def bufRead (s : State) : State :=
  if s.bptrInRange then { s with bufData := s.byteAt s.bptr.toNat, bptr := s.bptr + 1 }.done
  else s.fail .errRange

/-- `BUF_SETPTR a` (R67). -/
def execBufSetptr (a : Half) (s : State) : Host.Outcome State Fault Refusal :=
  .next (s.accepted .idleOnly (bufSetptr a))

/-- `BUF_WRITE b` (R68). -/
def execBufWrite (b : Byte) (s : State) : Host.Outcome State Fault Refusal :=
  .next (s.accepted .idleOnly (bufWrite b))

/-- `BUF_READ` (R69). -/
def execBufRead (s : State) : Host.Outcome State Fault Refusal := .next (s.accepted .idleOnly bufRead)

end Sys2Proof.Machine
end

