-- ==== Sys2Proof/Machine/CrcEngine.lean ====
section
/-! DEFINITION. The CRC-16 engine (40_crc.md): the functions of R58 to R62 over the open parameters, and the
commands CRC_INIT, CRC_STEP and CRC_BULK. -/

namespace Sys2Proof.Machine

/-- `rev16(x)`: bit i is bit 15-i of x (R59). -/
def rev16 (x : Half) : Half := x.reverse

/-- One of the eight rounds of an MSB-first CrcStep (R59). -/
def crcRoundMsb (poly c : Half) : Half := if c.getLsbD 15 then (c <<< 1) ^^^ poly else c <<< 1

/-- One of the eight rounds of an LSB-first CrcStep; `q` is the reversed polynomial (R59). -/
def crcRoundLsb (q c : Half) : Half := if c.getLsbD 0 then (c >>> 1) ^^^ q else c >>> 1

/-- `repeat n times` (R59). -/
def repeatTimes (f : Half → Half) : Nat → Half → Half
  | 0, c => c
  | n + 1, c => repeatTimes f n (f c)

/-- `CrcStep(c, b)` (R59). -/
def crcStep (p : Config.Params) (c : Half) (b : Byte) : Half :=
  if p.crcReflect then repeatTimes (crcRoundLsb (rev16 p.crcPoly)) 8 (c ^^^ b.setWidth 16)
  else repeatTimes (crcRoundMsb p.crcPoly) 8 (c ^^^ (b.setWidth 16 <<< 8))

/-- The fold of CrcStep over a byte sequence from a given state (R61). -/
def crcFold (p : Config.Params) : Half → List Byte → Half
  | c, [] => c
  | c, b :: bs => crcFold p (crcStep p c b) bs

/-- `CrcCompute(s)` (R60): seeded with 0xFFFF, no final XOR (R62). -/
def crcCompute (p : Config.Params) (bytes : List Byte) : Half := crcFold p Config.crcInit bytes

/-- CRC_INIT's own rule (R64). -/
def crcInit (s : State) : State := (s.setCrc Config.crcInit).done

/-- CRC_STEP's own rule (R65). -/
def crcStepByte (b : Byte) (s : State) : State := (s.setCrc (crcStep s.params s.crc b)).done

/-- CRC_BULK's own rule (R66); the range is checked without wrap-around (R38). -/
def crcBulk (n : Half) (s : State) : State :=
  if s.params.fbufSize < s.bptr.toNat + n.toNat then s.fail .errRange
  else (s.setCrc (crcCompute s.params (s.bytesFrom s.bptr.toNat n.toNat))).done

/-- `CRC_INIT` (R64). -/
def execCrcInit (s : State) : Host.Outcome State Fault Refusal := .next (s.accepted .idleOnly crcInit)

/-- `CRC_STEP b` (R65). -/
def execCrcStep (b : Byte) (s : State) : Host.Outcome State Fault Refusal :=
  .next (s.accepted .idleOnly (crcStepByte b))

/-- `CRC_BULK n` (R66). -/
def execCrcBulk (n : Half) (s : State) : Host.Outcome State Fault Refusal := .next (s.accepted .idleOnly (crcBulk n))

end Sys2Proof.Machine
end

