-- ==== Sys2Proof/Machine/Codec.lean ====
section
/-! DEFINITION. The frame codec (42_codec.md): the pure functions Encode and Decode (R71, R72), the in-buffer
functions EncodeFrame and CheckFrame (R74, R75), and the commands FRM_ENCODE and FRM_DECODE. -/

namespace Sys2Proof.Machine

/-- The two bytes of a frame field, the less significant first (R39). -/
def le16Bytes (v : Half) : List Byte := [loByte v, hiByte v]

/-- The four header bytes of a frame: index, then declared_length (R70). -/
def frameHeader (index len : Half) : List Byte := le16Bytes index ++ le16Bytes len

/-- Header and zero-padded payload of a frame (R71). -/
def frameBody (index len : Half) (cap : Nat) (payload : List Byte) : List Byte :=
  frameHeader index len ++ payload ++ List.replicate (cap - payload.length) 0

/-- `Encode(index, len, P, pl)` (R71), for `|pl| ≤ P`. -/
def frameEncode (p : Config.Params) (index len : Half) (cap : Nat) (payload : List Byte) : List Byte :=
  frameBody index len cap payload ++ le16Bytes (crcCompute p (frameBody index len cap payload))

/-- What `Decode` returns (R72). -/
inductive Decoded where
  | mismatch (stored computed : Half)
  | ok (index declaredLength : Half) (payload : List Byte)
  deriving DecidableEq, Repr

/-- `LE16` of the two bytes at position `i` of a frame (R11). -/
def fieldAt (f : List Byte) (i : Nat) : Half := le16 (f.getD i 0) (f.getD (i + 1) 0)

/-- `Decode(f, P)` (R72), for a sequence of P + 6 bytes. -/
def frameDecode (p : Config.Params) (f : List Byte) (cap : Nat) : Decoded :=
  let computed := crcCompute p (f.take (cap + 4))
  let stored := fieldAt f (cap + 4)
  if computed = stored then .ok (fieldAt f 0) (fieldAt f 2) ((f.drop 4).take cap) else .mismatch stored computed

/-- `EncodeFrame(idx, len)` (R74): header, zero padding, checksum, in place. -/
def encodeFrame (idx len : Half) (s : State) : State :=
  let headed := s.setBytes 0 (frameHeader idx len)
  let padded := headed.setBytes (4 + len.toNat) (List.replicate (s.capacity - len.toNat) 0)
  let c := crcCompute s.params (padded.bytesFrom 0 (s.capacity + 4))
  (padded.setBytes (s.capacity + 4) (le16Bytes c)).setCrc c

/-- What `CheckFrame` returns (R75). -/
structure FrameCheck where
  ok : Bool
  idx : Half
  len : Half
  stored : Half
  computed : Half
  deriving DecidableEq, Repr

/-- `LE16(FBUF[i], FBUF[i+1])` (R11). -/
def State.fieldAt (s : State) (i : Nat) : Half := le16 (s.byteAt i) (s.byteAt (i + 1))

/-- The values `CheckFrame` computes from the frame in FBUF (R75). -/
def State.frameCheck (s : State) : FrameCheck :=
  let computed := crcCompute s.params (s.bytesFrom 0 (s.capacity + 4))
  let stored := s.fieldAt (s.capacity + 4)
  { ok := computed == stored, idx := s.fieldAt 0, len := s.fieldAt 2, stored := stored, computed := computed }

/-- The register writes of `CheckFrame` (R75). -/
def checkFrame (s : State) : State :=
  let k := s.frameCheck
  { s with
    rxStored := k.stored
    rxCalc := k.computed
    crc := k.computed
    rxIndex := if k.ok then k.idx else s.rxIndex
    rxLength := if k.ok then k.len else s.rxLength
    lenOver := lenOverFlag k.ok k.len s.capacity }

/-- FRM_ENCODE's own rule (R76). -/
def frmEncode (s : State) : State :=
  if !s.configValid then s.fail .errConfig
  else if s.capacity < s.txLength.toNat then s.fail .errLength
  else (encodeFrame s.txIndex s.txLength s).done

/-- FRM_DECODE's own rule (R77). CRC_MISMATCH is an outcome, and the writes of CheckFrame stand (R98). -/
def frmDecode (s : State) : State :=
  if !s.configValid then s.fail .errConfig
  else (checkFrame s).setResult (if s.frameCheck.ok then .ok else .crcMismatch)

/-- `FRM_ENCODE` (R76). -/
def execFrmEncode (s : State) : Host.Outcome State Fault Refusal := .next (s.accepted .idleOnly frmEncode)

/-- `FRM_DECODE` (R77). -/
def execFrmDecode (s : State) : Host.Outcome State Fault Refusal := .next (s.accepted .idleOnly frmDecode)

end Sys2Proof.Machine
end

