-- ==== Sys2Proof/Machine/Control.lean ====
section
/-! DEFINITION. The control commands NOP and ABORT, and the register accesses of the window (45_control.md R93
to R96; CMD itself is in Transact.lean), and the platform's reset (70_reset_and_hazards.md R113). -/

namespace Sys2Proof.Machine

/-- NOP's own rule (R93). -/
def nop (s : State) : State := s.done

/-- ABORT's own rule (R94). -/
def abort (s : State) : State := { s with mode := .idle, fcount := 0, phase := .frame }.done

/-- `NOP` (R93). -/
def execNop (s : State) : Host.Outcome State Fault Refusal := .next (s.accepted .always nop)

/-- `ABORT` (R94). -/
def execAbort (s : State) : Host.Outcome State Fault Refusal := .next (s.accepted .always abort)

/-- The value a register read returns (R95): 0 for CMD, for the reserved offsets and for the unaligned ones. -/
def State.readReg (s : State) (off : Byte) : Word :=
  match off.toNat with
  | 0x04 => s.statusWord
  | 0x08 => s.configWord
  | 0x0C => s.crc.setWidth 32
  | 0x10 => s.bptr.setWidth 32
  | 0x14 => s.bufData.setWidth 32
  | 0x18 => s.txIndex.setWidth 32
  | 0x1C => s.txLength.setWidth 32
  | 0x20 => s.txTotal
  | 0x24 => s.txRemain
  | 0x28 => s.rxIndex.setWidth 32
  | 0x2C => s.rxLength.setWidth 32
  | 0x30 => s.rxCrcWord
  | 0x34 => s.expected.setWidth 32
  | 0x38 => s.fcountWord
  | _ => 0

/-- Bits 15..0 of a written value (R96). -/
def lowHalf (v : Word) : Half := v.extractLsb' 0 16

/-- The offsets of the RW registers (R14, R96). -/
def writableOffset (off : Byte) : Bool :=
  off == 0x08 || off == 0x0C || off == 0x10 || off == 0x18 || off == 0x1C || off == 0x20

/-- The accepted write of a RW register (R96): RESULT is unchanged, and bits without a field are ignored. -/
def State.storeReg (s : State) (off : Byte) (v : Word) : State :=
  match off.toNat with
  | 0x08 => { s with frameSize := lowHalf v, allowSkip := v.getLsbD 16, seqMode := SeqMode.ofBit (v.getLsbD 17) }
  | 0x0C => { s with crc := lowHalf v }
  | 0x10 => { s with bptr := lowHalf v }
  | 0x18 => { s with txIndex := lowHalf v }
  | 0x1C => { s with txLength := lowHalf v }
  | 0x20 => { s with txTotal := v }
  | _ => s

/-- A register write at an offset other than CMD (R96). -/
def State.writeReg (s : State) (off : Byte) (v : Word) : State :=
  if !writableOffset off then s.fail .errAccess
  else if s.mode != .idle then s.fail .errBusy
  else s.storeReg off v

/-- A register read takes effect (R95, R44): the host gets the value, and no block state changes. -/
def State.readTransaction (s : State) (off : Byte) : State := { s with reads := s.reads ++ [s.readReg off] }

/-- Byte `k` (0 to 3) of a register as a byte-addressed host bus sees it, at `base + o + k` (R40). A view
only: transactions are 32 bits wide (DEDUCED, assumption log 9). -/
def registerLane (v : Word) (k : Nat) : Byte := v.extractLsb' (8 * k) 8

/-- The platform's reset (R113): every register at its reset value, FBUF drawn anew; the output stream and the
host's side keep what they hold (DESIGN CHOICE, assumption log 2). -/
def State.platformReset (s : State) : State :=
  { State.reset with
    draw := resetDraw (s.resets + 1) s.params.fbufSize
    out := s.out
    host := s.host
    reads := s.reads
    params := s.params
    resets := s.resets + 1 }

end Sys2Proof.Machine
end

