-- ==== Sys2Proof/Machine/Splitter.lean ====
section
/-! DEFINITION. The splitter (43_splitter.md): the pure partition (R78) and what an encode session emits for it
(R82), and the commands TX_START and TX_BYTE. -/

namespace Sys2Proof.Machine

/-- One frame of a split stream: its index k, its declared length, and its bytes (R78). -/
structure SplitFrame where
  index : Nat
  length : Nat
  bytes : List Byte
  deriving DecidableEq, Repr

/-- `slice_k` of R78: the payload of frame `k`. -/
def splitSlice (d : List Byte) (cap k : Nat) : List Byte := (d.drop (k * cap)).take (min cap (d.length - k * cap))

/-- `frame_k` of R78. -/
def splitFrame (p : Config.Params) (d : List Byte) (cap k : Nat) : SplitFrame :=
  let len := min cap (d.length - k * cap)
  { index := k
    length := len
    bytes := frameEncode p (BitVec.ofNat 16 k) (BitVec.ofNat 16 len) cap (splitSlice d cap k) }

/-- `Split(D, P)` (R78): the frames k = 0, 1, …, ceil(L / P) - 1. -/
def splitFrames (p : Config.Params) (d : List Byte) (cap : Nat) : List SplitFrame :=
  (List.range (ceilDiv d.length cap)).map (splitFrame p d cap)

/-- What an encode session emits for one frame: its bytes, then its TX_FRAME event (R82). -/
def SplitFrame.items (f : SplitFrame) : List Item :=
  f.bytes.map Item.data ++ [.event (.txFrame (BitVec.ofNat 16 f.index) (BitVec.ofNat 16 f.length))]

/-- What an encode session of the bytes `d` emits (R82). -/
def encodeSessionItems (p : Config.Params) (d : List Byte) (cap : Nat) : List Item :=
  (splitFrames p d cap).flatMap SplitFrame.items
    ++ [.event (.txDone (BitVec.ofNat 17 (ceilDiv d.length cap)))]

/-- The number of frames the session of TX_TOTAL bytes needs (R80). -/
def State.framesNeeded (s : State) : Nat := frameCount s.txTotal s.capacity

/-- TX_START's own rule (R80). -/
def txStart (s : State) : State :=
  if !s.configValid then s.fail .errConfig
  else if Config.maxFrames < s.framesNeeded then s.fail .errCapacity
  else
    let t := { s with txIndex := 0, txRemain := s.txTotal, fcount := 0, phase := .frame }
    if s.txTotal = 0 then (t.emit [.event (.txDone 0)]).done else (t.setMode .tx).done

/-- TX_BYTE's first lines (R81): the byte is stored and counted. -/
def txAccept (b : Byte) (s : State) : State :=
  { s with fcount := s.fcount + 1, txRemain := s.txRemain - 1 }.setByte (4 + s.fcount.toNat) b

/-- The splitter goes on to the next frame (R81, R23). -/
def txNextFrame (s : State) : State := { s with txIndex := s.txIndex + 1, fcount := 0 }

/-- What TX_BYTE does when a frame is complete (R81): build it, emit it, go to the next index. -/
def txFrameComplete (s : State) : State :=
  let built := encodeFrame s.txIndex s.fcount { s with txLength := s.fcount }
  txNextFrame (built.emit ((built.bytesFrom 0 (s.capacity + 6)).map Item.data
    ++ [.event (.txFrame s.txIndex s.fcount)]))

/-- What TX_BYTE does after the last frame (R81). -/
def txFinish (s : State) : State :=
  (s.emit [.event (.txDone (BitVec.ofNat 17 s.framesNeeded))]).setMode .idle

/-- TX_BYTE's own rule (R81). -/
def txByte (b : Byte) (s : State) : State :=
  let u := txAccept b s
  if u.fcount.toNat = u.capacity ∨ u.txRemain = 0 then
    let v := txFrameComplete u
    if u.txRemain = 0 then (txFinish v).done else v.done
  else u.done

/-- `TX_START` (R80). -/
def execTxStart (s : State) : Host.Outcome State Fault Refusal := .next (s.accepted .idleOnly txStart)

/-- `TX_BYTE b` (R81). "A TX_BYTE in TX mode cannot fail": the fault is for states that no run reaches. -/
def execTxByte (b : Byte) (s : State) : Host.Outcome State Fault Refusal :=
  if s.mode == .tx && !s.encodeSessionInRange then .fault .encodeSessionOutOfRange
  else .next (s.accepted .txOnly (txByte b))

end Sys2Proof.Machine
end

