-- ==== Sys2Proof/Machine/Reassembler.lean ====
section
/-! DEFINITION. The reassembler (44_reassembler.md): the pure stream function (R83 to R87) and the commands
RX_START, RX_BYTE and RX_END. -/

namespace Sys2Proof.Machine

/-- The admission policy (R85): strict, or skip-tolerant with unsigned comparison. -/
def admits (idx expected : Half) (skip : Bool) : Bool :=
  if skip then expected.toNat ≤ idx.toNat else idx == expected

/-- `SeqUpdate(idx, seq)` (R86). -/
def seqUpdate (idx : Half) : SeqMode → Half
  | .pin => idx
  | .advance => idx + 1

/-- `Process(f, exp, P, skip, seq)` (R84): the new expected index and the items emitted. -/
def processFrame (p : Config.Params) (f : List Byte) (expected : Half) (cap : Nat) (skip : Bool) (seq : SeqMode) :
    Half × List Item :=
  match frameDecode p f cap with
  | .mismatch stored computed => (expected, [.event (.rxCrcFail (fieldAt f 0) stored computed)])
  | .ok idx len payload =>
    if !admits idx expected skip then (expected, [.event (.rxSeqReject idx expected)])
    else if cap < len.toNat then (expected, [.event (.rxLenReject idx len)])
    else (seqUpdate idx seq, (payload.take len.toNat).map Item.data ++ [.event (.rxAccept idx len)])

/-- The loop of R83 on at most `fuel` frames, from a given expected index; it also returns the final one (R91). -/
def reassembleLoop (p : Config.Params) (fs : Nat) (skip : Bool) (seq : SeqMode) :
    Nat → List Byte → Half → Half × List Item
  | 0, _, expected => (expected, [])
  | fuel + 1, stream, expected =>
    if stream.length < fs then (expected, [.event (.rxEnd (BitVec.ofNat 16 stream.length))])
    else
      let one := processFrame p (stream.take fs) expected (fs - Config.overhead) skip seq
      match stream.drop fs with
      | [] => (one.1, one.2 ++ [.event (.rxEnd 0)])
      | _ :: rest =>
        let more := reassembleLoop p fs skip seq fuel rest one.1
        (more.1, one.2 ++ more.2)

/-- `Reassemble(S, FS, skip, seq)` (R83) with the final expected index. Each round of the loop takes a byte of
the stream at least, so one round more than its length is enough (DEDUCED, assumption log 11). -/
def reassemble (p : Config.Params) (stream : List Byte) (fs : Nat) (skip : Bool) (seq : SeqMode) : Half × List Item :=
  reassembleLoop p fs skip seq (stream.length + 1) stream 0

/-- The payload bytes of an item sequence: its Data items, in order (R92). -/
def dataItems : List Item → List Byte
  | [] => []
  | .data b :: items => b :: dataItems items
  | .event _ :: items => dataItems items

/-- RX_START's own rule (R88). -/
def rxStart (s : State) : State :=
  if !s.configValid then s.fail .errConfig
  else { s with expected := 0, fcount := 0, phase := .frame, mode := .rx }.done

/-- The lines of `FrameComplete()` after CheckFrame (R89, R84, R87): one event, and the payload if admitted. -/
def rxVerdict (k : FrameCheck) (s : State) : State :=
  if !k.ok then s.emit [.event (.rxCrcFail k.idx k.stored k.computed)]
  else if !admits k.idx s.expected s.allowSkip then s.emit [.event (.rxSeqReject k.idx s.expected)]
  else if s.capacity < k.len.toNat then s.emit [.event (.rxLenReject k.idx k.len)]
  else
    { s with expected := seqUpdate k.idx s.seqMode }.emit
      ((s.bytesFrom 4 k.len.toNat).map Item.data ++ [Item.event (.rxAccept k.idx k.len)])

/-- `FrameComplete()` (R89). -/
def rxFrameComplete (s : State) : State := rxVerdict s.frameCheck (checkFrame s)

/-- RX_BYTE's lines for a frame byte (R89, step 1): the byte is stored and counted. -/
def rxAccept (b : Byte) (s : State) : State := { s with fcount := s.fcount + 1 }.setByte s.fcount.toNat b

/-- A frame is complete: FCOUNT starts again and the separator comes next (R89). -/
def rxToSeparator (s : State) : State := { s with fcount := 0, phase := .separator }

/-- RX_BYTE's own rule (R89). -/
def rxByte (b : Byte) (s : State) : State :=
  match s.phase with
  | .separator => { s with phase := .frame }.done
  | .frame =>
    let u := rxAccept b s
    if u.fcount = u.frameSize then (rxFrameComplete (rxToSeparator u)).done
    else u.done

/-- RX_END's own rule (R90). -/
def rxEnd (s : State) : State :=
  let d : Half := match s.phase with
    | .frame => s.fcount
    | .separator => 0
  ({ s with mode := .idle, fcount := 0, phase := .frame }.emit [Item.event (.rxEnd d)]).done

/-- `RX_START` (R88). -/
def execRxStart (s : State) : Host.Outcome State Fault Refusal := .next (s.accepted .idleOnly rxStart)

/-- `RX_BYTE b` (R89). "In RX mode an RX_BYTE always gives RESULT = OK": the fault is for states that no run
reaches. -/
def execRxByte (b : Byte) (s : State) : Host.Outcome State Fault Refusal :=
  if s.mode == .rx && !s.decodeSessionInRange then .fault .decodeSessionOutOfRange
  else .next (s.accepted .rxOnly (rxByte b))

/-- `RX_END` (R90). -/
def execRxEnd (s : State) : Host.Outcome State Fault Refusal := .next (s.accepted .rxOnly rxEnd)

end Sys2Proof.Machine
end

