-- ==== Sys2Proof/Machine/Dispatch.lean ====
section
/-! DEFINITION. The meaning of each command, one arm per constructor of Instr (30_encoding.md R52). -/

namespace Sys2Proof.Machine

def exec (i : Instr) (s : State) : Host.Outcome State Fault Refusal :=
  match i with
  | .nop => Sys2Proof.Machine.execNop s
  | .crcInit => Sys2Proof.Machine.execCrcInit s
  | .crcStep b => Sys2Proof.Machine.execCrcStep b s
  | .crcBulk n => Sys2Proof.Machine.execCrcBulk n s
  | .bufSetptr a => Sys2Proof.Machine.execBufSetptr a s
  | .bufWrite b => Sys2Proof.Machine.execBufWrite b s
  | .bufRead => Sys2Proof.Machine.execBufRead s
  | .frmEncode => Sys2Proof.Machine.execFrmEncode s
  | .frmDecode => Sys2Proof.Machine.execFrmDecode s
  | .txStart => Sys2Proof.Machine.execTxStart s
  | .txByte b => Sys2Proof.Machine.execTxByte b s
  | .rxStart => Sys2Proof.Machine.execRxStart s
  | .rxByte b => Sys2Proof.Machine.execRxByte b s
  | .rxEnd => Sys2Proof.Machine.execRxEnd s
  | .abort => Sys2Proof.Machine.execAbort s

end Sys2Proof.Machine
end

