-- ==== Sys2Proof/Machine/Transact.lean ====
section
/-! DEFINITION. One host transaction (30_encoding.md R55, 70_reset_and_hazards.md R115): a register read, a
register write, a command (a write to CMD), or the platform's reset. -/

namespace Sys2Proof.Machine

/-- The offset of CMD (R14). -/
def cmdOffset : Byte := 0x00

/-- A write of `w` to CMD (R96): the word is decoded and its command runs; a word that does not decode sets
RESULT = ERR_OPCODE and has no other effect, in every MODE (R53, R54). -/
def runCommand (w : Word) (s : State) : Host.Outcome State Fault Refusal :=
  match decode w with
  | .ok i => exec i s
  | .error _ => .next (s.fail .errOpcode)

/-- One transaction takes effect, atomically (R115). -/
def transact (t : Txn) (s : State) : Host.Outcome State Fault Refusal :=
  match t with
  | .rd off => .next (s.readTransaction off)
  | .wr off v => if off = cmdOffset then runCommand v s else .next (s.writeReg off v)
  | .reset => .next s.platformReset

/-- The transaction that issues a command (R55). -/
def issue (i : Instr) : Txn := .wr cmdOffset (encode i)

/-- The host has issued its next transaction. -/
def State.issued (s : State) (rest : List Txn) : State := { s with host := rest }

/-- The next thing that happens to the machine: the host's next transaction takes effect, in the order the host
issues them (R45); while the host issues none, the block holds its state (R112; DESIGN CHOICE, assumption log 3). -/
def nextTransaction (s : State) : Host.Outcome State Fault Refusal :=
  match s.host with
  | [] => .next s
  | t :: rest => transact t (s.issued rest)

/-- A transaction the host is about to issue before the others. -/
def State.withTransaction (s : State) (t : Txn) : State := { s with host := t :: s.host }

/-- Commands the host is about to issue, in order, before its other transactions. -/
def State.withCommands (s : State) (is : List Instr) : State := { s with host := is.map issue ++ s.host }

/-- The command word in the low `nbits` bits of `w`. -/
def commandWord (nbits w : Nat) : Word := BitVec.ofNat 32 (w % 2 ^ nbits)

end Sys2Proof.Machine
end

