-- ==== Sys2Proof/Machine/Step.lean ====
section
/-! DEFINITION. The step: one host transaction, untimed (70_reset_and_hazards.md R115, R125). -/

namespace Sys2Proof.Machine

/-- One step is one transaction: the next one the host issues, whole (R115). There is no time: however long an
implementation takes for a command, the transaction is one step here (R125). -/
def step (s : State) : Host.Outcome State Fault Refusal := nextTransaction s

/-- `s` with a host that is about to write the given command word to CMD: the QFB fetches no instructions (R35,
R47), so this is where the next command comes from (DESIGN CHOICE, assumption log 3). -/
def State.withFetchWord (s : State) (nbits w : Nat) : State :=
  s.withTransaction (.wr cmdOffset (commandWord nbits w))

end Sys2Proof.Machine
end

