-- ==== Sys2Proof/Machine/Assembler.lean ====
section
/-! DEFINITION. Host programs (30_encoding.md R56, R57): the transaction each line assembles to, and the
pseudo-instructions' expansions. -/

namespace Sys2Proof.Machine

/-- The offset of each named register (R14). -/
def registerOffset : RegName → Byte
  | .cmd => 0x00
  | .status => 0x04
  | .config => 0x08
  | .crc => 0x0C
  | .bptr => 0x10
  | .bufData => 0x14
  | .txIndex => 0x18
  | .txLength => 0x1C
  | .txTotal => 0x20
  | .txRemain => 0x24
  | .rxIndex => 0x28
  | .rxLength => 0x2C
  | .rxCrc => 0x30
  | .expected => 0x34
  | .fcount => 0x38

/-- A line of a host program as a transaction (R55, R56); `none` is an assembly error. -/
def assemble (l : AsmLine) : Option Txn :=
  if !l.wellFormed then none
  else match l with
    | .command op imm =>
      some (issue (op.instr (BitVec.ofNat 8 (imm.getD 0)) (BitVec.ofNat 16 (imm.getD 0))))
    | .write r imm => some (.wr (registerOffset r) (BitVec.ofNat 32 imm))
    | .read r => some (.rd (registerOffset r))

/-- `BUF_LOAD a, b0, …, bk` (R57). -/
def bufLoad (a : Half) (bs : List Byte) : List Txn := issue (.bufSetptr a) :: bs.map fun b => issue (.bufWrite b)

/-- `CRC_BYTES b0, …, bk` (R57). -/
def crcBytes (bs : List Byte) : List Txn := issue .crcInit :: bs.map fun b => issue (.crcStep b)

/-- `TX_BYTES b0, …, bk` (R57). -/
def txBytes (bs : List Byte) : List Txn := bs.map fun b => issue (.txByte b)

/-- `RX_BYTES b0, …, bk` (R57). -/
def rxBytes (bs : List Byte) : List Txn := bs.map fun b => issue (.rxByte b)

/-- `RX_FRAME f0, …, f(n-1); s` (R57): a frame and its separator. -/
def rxFrame (frame : List Byte) (separator : Byte) : List Txn := rxBytes frame ++ [issue (.rxByte separator)]

/-- `CFG fs, skip, seq` (R57). -/
def cfg (fs : Half) (skip seq : Bool) : Txn :=
  .wr (registerOffset .config)
    (fs.setWidth 32 ||| ((BitVec.ofBool skip).setWidth 32 <<< 16) ||| ((BitVec.ofBool seq).setWidth 32 <<< 17))

/-- `"text"` in a byte list (R57): the ASCII codes of its characters. -/
def asciiBytes (text : String) : List Byte := text.toList.map fun c => BitVec.ofNat 8 c.toNat

end Sys2Proof.Machine
end

