-- ==== Sys2Proof/Safety.lean ====
section
/-! DEFINITION. What a legal state of the QFB is, in the terms the statements use: the ranges the spec gives the
parameters, the buffer and the sequencing registers (10_state.md R23, R26, R31; 00_scope.md R8, R9). -/

namespace Sys2Proof.Machine

/-- The parameters are in the ranges of R8, the last reset drew one byte for each index of FBUF (R32), and the
buffer's cells are in canonical form and in range (R38). -/
abbrev State.bufferLegal (s : State) : Prop :=
  s.params.legal ∧ s.draw.length = s.params.fbufSize ∧ Memory.wf s.draw s.fbuf ∧
    ∀ c ∈ s.fbuf, c.1 < s.params.fbufSize

/-- Outside a session FCOUNT and PHASE are 0 (R31). -/
abbrev State.idleLegal (s : State) : Prop := s.fcount = 0 ∧ s.phase = .frame

/-- In an encode session: CONFIG is valid (R100), at most 65536 frames are needed (R80), FCOUNT counts from 0 to
P - 1 and PHASE is 0 (R31), bytes are still to come (R26), and TX_INDEX full frames, FCOUNT bytes of the current
one and the bytes still to come make up TX_TOTAL (R23, R26, R31). -/
abbrev State.encodeLegal (s : State) : Prop :=
  s.configValid = true ∧ s.txTotal.toNat ≤ Config.maxFrames * s.capacity ∧
    s.fcount.toNat < s.capacity ∧ s.phase = .frame ∧ 0 < s.txRemain.toNat ∧
    s.txIndex.toNat * s.capacity + s.fcount.toNat + s.txRemain.toNat = s.txTotal.toNat

/-- In a decode session: CONFIG is valid (R100), FCOUNT counts from 0 to FRAME_SIZE - 1, and it is 0 while the
next byte is a separator (R31, R89). -/
abbrev State.decodeLegal (s : State) : Prop :=
  s.configValid = true ∧ s.fcount.toNat < s.frameSize.toNat ∧ (s.phase = .separator → s.fcount = 0)

/-- What MODE says of the sequencing registers. -/
abbrev State.sessionLegal (s : State) : Prop :=
  (s.mode = .idle → s.idleLegal) ∧ (s.mode = .tx → s.encodeLegal) ∧ (s.mode = .rx → s.decodeLegal)

/-- The invariant: reset meets it and every step keeps it. -/
abbrev State.Inv (s : State) : Prop := s.bufferLegal ∧ s.sessionLegal

/-- The illegal words of one opcode (R53, R54): a word with this OP value, and a bit that the format's mask requires
to be 0 set, sets RESULT = ERR_OPCODE and does nothing else, in every mode. -/
def IllegalFormsRefused (op mask : Word) : Prop :=
  ∀ (w : Word) (s : State), w &&& 0xFF = op → w &&& mask ≠ op →
    runCommand w s = .next { s with result := .errOpcode }

/-- A reserved OP value, or a listed one with a bit set that its row's mask requires to be 0 (R54). -/
def IllegalWord (w : Word) : Prop :=
  (∃ r ∈ [(0x01, 0x0F), (0x13, 0x1F), (0x23, 0x2F), (0x32, 0x3F), (0x42, 0x4F), (0x53, 0x5F), (0x61, 0xFF)],
      r.1 ≤ w.toNat % 256 ∧ w.toNat % 256 ≤ r.2) ∨
    ∃ r ∈ opcodeRows, w &&& 0xFF = r.1 ∧ w &&& r.2 ≠ r.1

/-- The product of two polynomials over GF(2), `q` of 8 bits and `g` of at most 17, as a 24-bit word. -/
def carrylessMul (q : Byte) (g : BitVec 24) : BitVec 24 :=
  (List.range 8).foldl (fun acc k => if q.getLsbD k then acc ^^^ (g <<< k) else acc) 0

/-- Commands executed one after the other, stopping at the first fault or refusal. -/
def execAll : List Instr → State → Host.Outcome State Fault Refusal
  | [], s => .next s
  | i :: is, s =>
    match exec i s with
    | .next t => execAll is t
    | .fault f => .fault f
    | .refused r => .refused r

end Sys2Proof.Machine
end

