-- ==== Sys2Proof/Certificates/Slice0/Obligations.lean ====
section
/-! DEFINITION. The statements about the QFB. Every statement is about all states, parameters and frame buffer
contents its hypotheses allow; none rests on the value of a free draw or of an open parameter. -/

open Sys2Proof Sys2Proof.Machine

/-! ## Encoding (30_encoding.md) -/

/-- R53, R56: the word a command assembles to decodes to that command, whatever its operand. -/
def Obligations.DecodeUndoesEncode : Prop := ∀ i : Instr, decode (encode i) = .ok i

/-- R53: a word that decodes is the one word of its command, so no bit of an accepted word is ignored. -/
def Obligations.EncodeUndoesDecode : Prop := ∀ (w : Word) (i : Instr), decode w = .ok i → encode i = w

/-- R53: the decoder accepts exactly the words that match a row of R52's map, and a word matches one row at most. -/
def Obligations.DecodeAcceptsExactlyTheOpcodeMap : Prop :=
  ∀ w : Word,
    ((∃ i, decode w = .ok i) ↔ ∃ r ∈ opcodeRows, w &&& r.2 = r.1) ∧
      ∀ r ∈ opcodeRows, ∀ q ∈ opcodeRows, w &&& r.2 = r.1 → w &&& q.2 = q.1 → r = q

/-- Words written out from R52's formats, one of each family, and three illegal ones (95_test_vectors.md 2.1). -/
def Obligations.WordsOfTheOpcodeMapDecode : Prop :=
  decode 0x00000000 = .ok .nop ∧ decode 0x00004111 = .ok (.crcStep 0x41) ∧
    decode 0x00090012 = .ok (.crcBulk 9) ∧ decode 0x00040020 = .ok (.bufSetptr 4) ∧
    decode 0x00000030 = .ok .frmEncode ∧ decode 0x00004841 = .ok (.txByte 0x48) ∧
    decode 0x0000EE51 = .ok (.rxByte 0xEE) ∧ decode 0x00000060 = .ok .abort ∧
    decode 0x00000001 = .error (.reservedOpcode 0x01) ∧ decode 0x00010010 = .error (.mustBeZero .crcInit) ∧
    decode 0x00000112 = .error (.mustBeZero .crcBulk)

/-- R54: an illegal command word sets RESULT = ERR_OPCODE and has no other effect, in every mode. -/
def Obligations.IllegalWordSetsErrOpcodeOnly : Prop :=
  ∀ (s : State) (rest : List Txn) (w : Word), s.host = .wr 0x00 w :: rest → IllegalWord w →
    step s = .next { s with host := rest, result := .errOpcode }

/-- R56: a line of a command assembles to a write of `zext_32(OP) | (B << 8) | (H << 16)` to CMD when its operand
is in range of its format, and to no transaction otherwise. -/
def Obligations.AssembledCommandIsItsWord : Prop :=
  (∀ op : Op, op.format = .n →
      assemble (.command op none) = some (.wr 0x00 (op.code.setWidth 32)) ∧
        ∀ k, assemble (.command op (some k)) = none) ∧
    (∀ op : Op, op.format = .b →
      assemble (.command op none) = none ∧
        ∀ k, assemble (.command op (some k)) =
          if k < 256 then some (.wr 0x00 (BitVec.ofNat 32 (op.code.toNat + 256 * k))) else none) ∧
    ∀ op : Op, op.format = .h →
      assemble (.command op none) = none ∧
        ∀ k, assemble (.command op (some k)) =
          if k < 65536 then some (.wr 0x00 (BitVec.ofNat 32 (op.code.toNat + 65536 * k))) else none

/-! ## The step and the register window (45_control.md, 70_reset_and_hazards.md) -/

/-- R55, R96: a write to CMD of a word that decodes runs that command, on the state whose host has issued the write
and is left with its other transactions. Every `Instr` is well formed (its operands have R51's widths). -/
def Obligations.StepRunsTheDecodedCommand : Prop :=
  ∀ (s : State) (rest : List Txn) (w : Word) (i : Instr),
    s.host = .wr 0x00 w :: rest → decode w = .ok i → step s = exec i { s with host := rest }

/-- The model's own choice (assumption log 3, after R112): while the host issues nothing, a step changes nothing. -/
def Obligations.SilentHostHoldsTheState : Prop := ∀ s : State, s.host = [] → step s = .next s

/-- R115, R125: each transaction is one step. From a legal state whose host is going to issue `xs` and then `rest`, as
many steps as `xs` is long run, end in a legal state, and leave exactly `rest`; and time adds nothing: where `rest` is
empty, any number of further steps ends in that same state (the idle step is the model's choice, assumption log 3). -/
def Obligations.EachTransactionIsOneUntimedStep : Prop :=
  ∀ (s : State) (xs rest : List Txn), s.Inv → s.host = xs ++ rest →
    ∃ t, Sys2Proof.core.run xs.length s = .next t ∧ t.host = rest ∧ t.Inv ∧
      (rest = [] → ∀ n, Sys2Proof.core.run (xs.length + n) s = .next t)

/-- R95: a register read returns the register's fields at their places, 0 at the reserved and unaligned offsets and
for CMD, and changes no block state. -/
def Obligations.RegisterReadReturnsTheFields : Prop :=
  ∀ (s : State) (rest : List Txn) (off : Byte), s.host = .rd off :: rest →
    ∃ v : Word, step s = .next { s with host := rest, reads := s.reads ++ [v] } ∧
      (off = 0x00 → v.toNat = 0) ∧
      (off = 0x04 → v.toNat = s.result.code.toNat + 16 * s.mode.code.toNat + 64 * s.lenOver.toNat) ∧
      (off = 0x08 → v.toNat = s.frameSize.toNat + 65536 * s.allowSkip.toNat + 131072 * s.seqMode.bit.toNat) ∧
      (off = 0x0C → v.toNat = s.crc.toNat) ∧
      (off = 0x10 → v.toNat = s.bptr.toNat) ∧
      (off = 0x14 → v.toNat = s.bufData.toNat) ∧
      (off = 0x18 → v.toNat = s.txIndex.toNat) ∧
      (off = 0x1C → v.toNat = s.txLength.toNat) ∧
      (off = 0x20 → v = s.txTotal) ∧
      (off = 0x24 → v = s.txRemain) ∧
      (off = 0x28 → v.toNat = s.rxIndex.toNat) ∧
      (off = 0x2C → v.toNat = s.rxLength.toNat) ∧
      (off = 0x30 → v.toNat = s.rxStored.toNat + 65536 * s.rxCalc.toNat) ∧
      (off = 0x34 → v.toNat = s.expected.toNat) ∧
      (off = 0x38 → v.toNat = s.fcount.toNat + 65536 * s.phase.bit.toNat) ∧
      (off.toNat % 4 ≠ 0 ∨ 0x38 < off.toNat → v.toNat = 0)

/-- R96: a register write. CMD runs the command; a read-only, reserved or unaligned offset gives ERR_ACCESS; a RW
register gives ERR_BUSY in a session, and otherwise takes the fields' bits and leaves RESULT. -/
def Obligations.RegisterWriteFollowsTheAccessRights : Prop :=
  ∀ (s : State) (rest : List Txn) (off : Byte) (v : Word), s.host = .wr off v :: rest →
    (off = 0x00 → step s = runCommand v { s with host := rest }) ∧
    (off ≠ 0x00 → off ∉ [0x08, 0x0C, 0x10, 0x18, 0x1C, 0x20] →
      step s = .next { s with host := rest, result := .errAccess }) ∧
    (off ∈ [0x08, 0x0C, 0x10, 0x18, 0x1C, 0x20] → s.mode ≠ .idle →
      step s = .next { s with host := rest, result := .errBusy }) ∧
    (s.mode = .idle →
      (off = 0x08 → step s = .next { s with
        host := rest, frameSize := BitVec.ofNat 16 (v.toNat % 65536), allowSkip := v.toNat / 65536 % 2 == 1
        seqMode := if v.toNat / 131072 % 2 = 1 then .advance else .pin }) ∧
      (off = 0x0C → step s = .next { s with host := rest, crc := BitVec.ofNat 16 (v.toNat % 65536) }) ∧
      (off = 0x10 → step s = .next { s with host := rest, bptr := BitVec.ofNat 16 (v.toNat % 65536) }) ∧
      (off = 0x18 → step s = .next { s with host := rest, txIndex := BitVec.ofNat 16 (v.toNat % 65536) }) ∧
      (off = 0x1C → step s = .next { s with host := rest, txLength := BitVec.ofNat 16 (v.toNat % 65536) }) ∧
      (off = 0x20 → step s = .next { s with host := rest, txTotal := v }))

/-- R14, R96: what an accepted write leaves reads back with the bits that have no field as 0. -/
def Obligations.WrittenRegisterReadsBackItsFields : Prop :=
  ∀ (s : State) (rest : List Txn) (off : Byte) (v mask : Word), s.mode = .idle →
    (off, mask) ∈ ([(0x08, 0x0003FFFF), (0x0C, 0x0000FFFF), (0x10, 0x0000FFFF), (0x18, 0x0000FFFF),
      (0x1C, 0x0000FFFF), (0x20, 0xFFFFFFFF)] : List (Byte × Word)) →
    s.host = .wr off v :: .rd off :: rest →
    ∃ t, Sys2Proof.core.run 2 s = .next t ∧ t.host = rest ∧ t.reads = s.reads ++ [v &&& mask] ∧
      t.result = s.result ∧ t.out = s.out

/-- R97, R15, R19, R31, R102: the codes of the result, mode, sequence-update and phase fields, and of the event kinds. -/
def Obligations.FieldCodesMatchTheTables : Prop :=
  [Result.ok, .crcMismatch, .errOpcode, .errState, .errBusy, .errConfig, .errRange, .errLength, .errCapacity,
      .errAccess].map (fun r => r.code.toNat) = [0x0, 0x1, 0x2, 0x3, 0x4, 0x5, 0x6, 0x7, 0x8, 0x9] ∧
    [Mode.idle, .tx, .rx].map (fun m => m.code.toNat) = [0, 1, 2] ∧
    [SeqMode.pin, .advance].map (fun q => q.bit.toNat) = [0, 1] ∧
    [Phase.frame, .separator].map (fun q => q.bit.toNat) = [0, 1] ∧
    ∀ (x y z : Half) (n : BitVec 17),
      [Event.txFrame x y, .txDone n, .rxAccept x y, .rxCrcFail x y z, .rxSeqReject x y, .rxLenReject x y,
        .rxEnd x].map Event.kind = [1, 2, 3, 4, 5, 6, 7]

/-! ## Reset and the invariant -/

/-- R113: after reset, at power-on or by any later reset, in whatever state and mode it comes, every register field
has the table's value; a later reset neither adds to the output stream nor takes from it. (That a later reset
is one step is the model's choice: DESIGN CHOICE, assumption log 2.) -/
def Obligations.ResetSetsTheTablesValues : Prop :=
  (∀ t : State, (t = State.reset ∨ ∃ s rest, s.host = .reset :: rest ∧ step s = .next t) →
    t.result = .ok ∧ t.mode = .idle ∧ t.lenOver = false ∧ t.frameSize = 1024 ∧ t.allowSkip = false ∧
      t.seqMode = .pin ∧ t.crc = 0xFFFF ∧ t.bptr = 0 ∧ t.bufData = 0 ∧ t.txIndex = 0 ∧ t.txLength = 0 ∧
      t.txTotal = 0 ∧ t.txRemain = 0 ∧ t.rxIndex = 0 ∧ t.rxLength = 0 ∧ t.rxStored = 0 ∧ t.rxCalc = 0 ∧
      t.expected = 0 ∧ t.fcount = 0 ∧ t.phase = .frame) ∧
    ∀ (s : State) (rest : List Txn), s.host = .reset :: rest → ∃ t, step s = .next t ∧ t.out = s.out

/-- R32, and the model's own choices in assumption logs 2 and 5: every byte of FBUF is its draw right after a reset,
each reset makes draws of its own, and a later reset leaves the host's side and the parameters. -/
def Obligations.ResetDrawsTheFrameBufferAnew : Prop :=
  (State.reset.fbuf = [] ∧ State.reset.out = [] ∧ State.reset.host = [] ∧
      ∀ i, i < State.reset.params.fbufSize → State.reset.byteAt i = Config.fbufDraw 0 i) ∧
    ∀ (s : State) (rest : List Txn), s.host = .reset :: rest →
      ∃ t, step s = .next t ∧ t.fbuf = [] ∧ t.draw.length = s.params.fbufSize ∧ t.host = rest ∧
        t.reads = s.reads ∧ t.params = s.params ∧ t.resets = s.resets + 1 ∧
        ∀ i, i < s.params.fbufSize → t.byteAt i = Config.fbufDraw (s.resets + 1) i

/-- The state after reset is legal, whatever the open parameters and the draws are. -/
def Obligations.ResetMeetsTheInvariant : Prop := State.reset.Inv

/-- R15, R23, R26, R31, R38: every step from a legal state gives a legal state: the buffer's cells stay in canonical
form and in range, FCOUNT and PHASE are 0 outside a session, and within one the sequencing registers stay in
their ranges and agree with TX_TOTAL. -/
def Obligations.StepKeepsTheInvariant : Prop := ∀ s t : State, s.Inv → step s = .next t → t.Inv

/-- R98, R104: in a legal state no transaction stops the block. -/
def Obligations.LegalStatesNeverStop : Prop := ∀ s : State, s.Inv → ∃ t, step s = .next t

/-- The model's own choice (assumption log 4): a command stops the machine only as TX_BYTE or RX_BYTE, in its own
session, with the sequencing registers outside the ranges of R9, R26 and R31; and no command is refused. -/
def Obligations.CommandsStopOnlyOutsideSessionRanges : Prop :=
  (∀ (b : Byte) (s : State) (f : Fault), exec (.txByte b) s = .fault f ↔
      f = .encodeSessionOutOfRange ∧ s.mode = .tx ∧
        ¬(7 ≤ s.frameSize.toNat ∧ s.frameSize.toNat ≤ s.params.fbufSize ∧ s.fcount.toNat < s.frameSize.toNat - 6 ∧
          0 < s.txRemain.toNat)) ∧
    (∀ (b : Byte) (s : State) (f : Fault), exec (.rxByte b) s = .fault f ↔
      f = .decodeSessionOutOfRange ∧ s.mode = .rx ∧ s.phase = .frame ∧
        ¬(7 ≤ s.frameSize.toNat ∧ s.frameSize.toNat ≤ s.params.fbufSize ∧ s.fcount.toNat < s.frameSize.toNat)) ∧
    (∀ (i : Instr) (s : State) (f : Fault), exec i s = .fault f → ∃ b, i = .txByte b ∨ i = .rxByte b) ∧
    ∀ (i : Instr) (s : State) (r : Refusal), exec i s ≠ .refused r

/-! ## Rules about every command (60_exceptions.md, 10_state.md) -/

/-- After R99: the code of each refusal, and that a command its mode accepts ends with neither of the two codes. What an
accepted command does is each command's own statement. -/
def Obligations.ModeAcceptanceTable : Prop :=
  ∀ (i : Instr) (s : State),
    (i.op ∈ [.crcInit, .crcStep, .crcBulk, .bufSetptr, .bufWrite, .bufRead, .frmEncode, .frmDecode, .txStart, .rxStart] →
      s.mode = .tx ∨ s.mode = .rx → exec i s = .next { s with result := .errBusy }) ∧
    (i.op ∈ [.txByte, .rxByte, .rxEnd] → s.mode = .idle → exec i s = .next { s with result := .errState }) ∧
    (i.op = .txByte → s.mode = .rx → exec i s = .next { s with result := .errBusy }) ∧
    (i.op ∈ [.rxByte, .rxEnd] → s.mode = .tx → exec i s = .next { s with result := .errBusy }) ∧
    (i.op ∈ [.nop, .abort] ∨ i.op ∉ [.nop, .abort, .txByte, .rxByte, .rxEnd] ∧ s.mode = .idle ∨
        i.op = .txByte ∧ s.mode = .tx ∨ i.op ∈ [.rxByte, .rxEnd] ∧ s.mode = .rx →
      ∀ t, exec i s = .next t → t.result ≠ .errBusy ∧ t.result ≠ .errState)

/-- R98: a command word or a register write that ends with an error code has that one effect. (An accepted register
write may leave an error of before; then it leaves RESULT as it was.) CRC_MISMATCH keeps FRM_DECODE's writes. After
an error, as after anything else, a legal block takes the next transaction. -/
def Obligations.ErrorsArePrecise : Prop :=
  (∀ (w : Word) (s t : State), runCommand w s = .next t → 2 ≤ t.result.code.toNat →
      t = { s with result := t.result }) ∧
    (∀ (s t : State) (off : Byte) (v : Word) (rest : List Txn), off ≠ 0x00 → s.host = .wr off v :: rest →
      step s = .next t → t = { s with host := rest, result := t.result } ∧ 2 ≤ t.result.code.toNat ∨
        t.result = s.result) ∧
    (∀ (i : Instr) (s t : State), exec i s = .next t → t.result = .crcMismatch →
      i = .frmDecode ∧ t.rxStored ≠ t.rxCalc ∧ t.rxCalc = crcCompute s.params (s.bytesFrom 0 (s.capacity + 4)) ∧
        t = { s with
          crc := t.rxCalc, rxStored := t.rxStored, rxCalc := t.rxCalc, lenOver := false
          result := .crcMismatch }) ∧
    ∀ (s : State) (x : Txn) (rest : List Txn), s.Inv → s.host = x :: rest → ∃ t, step s = .next t ∧ t.host = rest

/-- R97: which command word sets each result code; a command never sets ERR_ACCESS. -/
def Obligations.ResultCodesComeFromTheirCommands : Prop :=
  ∀ (w : Word) (s t : State), runCommand w s = .next t →
    (t.result = .errOpcode ↔ ∃ e, decode w = .error e) ∧ t.result ≠ .errAccess ∧
      ∀ i, decode w = .ok i →
        (t.result = .crcMismatch → i = .frmDecode) ∧
        (t.result = .errState → i.op ∈ [.txByte, .rxByte, .rxEnd] ∧ s.mode = .idle) ∧
        (t.result = .errBusy → i.op ∉ [.nop, .abort] ∧ s.mode ≠ .idle) ∧
        (t.result = .errConfig → i.op ∈ [.frmEncode, .frmDecode, .txStart, .rxStart] ∧
          ¬(7 ≤ s.frameSize.toNat ∧ s.frameSize.toNat ≤ s.params.fbufSize)) ∧
        (t.result = .errRange → (∃ n, i = .crcBulk n ∧ s.params.fbufSize < s.bptr.toNat + n.toNat) ∨
          i.op ∈ [.bufWrite, .bufRead] ∧ s.params.fbufSize ≤ s.bptr.toNat) ∧
        (t.result = .errLength → i = .frmEncode ∧ s.frameSize.toNat - 6 < s.txLength.toNat) ∧
        (t.result = .errCapacity → i = .txStart ∧ 65536 * (s.frameSize.toNat - 6) < s.txTotal.toNat)

/-- R20, R119: of the commands only CRC_INIT, CRC_STEP, CRC_BULK, FRM_ENCODE, FRM_DECODE and the byte that completes
a frame of a session write CRC. -/
def Obligations.OnlyCrcUsersWriteCrc : Prop :=
  ∀ (i : Instr) (s t : State), exec i s = .next t → t.crc ≠ s.crc →
    i.op ∈ [.crcInit, .crcStep, .crcBulk, .frmEncode, .frmDecode] ∧ s.mode = .idle ∨
      i.op = .txByte ∧ s.mode = .tx ∧ t.fcount = 0 ∧ t.txIndex = s.txIndex + 1 ∨
      i.op = .rxByte ∧ s.mode = .rx ∧ s.phase = .frame ∧ t.phase = .separator ∧ t.fcount = 0

/-- R16, R120: every command word sets RESULT, and none reads it: what a command word does is the same whatever
RESULT was before. -/
def Obligations.CommandsOverwriteResultUnread : Prop :=
  ∀ (w : Word) (s : State) (r : Result), runCommand w { s with result := r } = runCommand w s

/-- R33: every transaction appends to the output stream, whatever is in it already, and nothing reads it. -/
def Obligations.OutputStreamIsAppendOnly : Prop :=
  ∀ s t : State, step s = .next t →
    ∃ items, t.out = s.out ++ items ∧
      ∀ o : List Item, step { s with out := o } = .next { t with out := o ++ items }

/-- R15: MODE is written only by TX_START, the last TX_BYTE of a session, RX_START, RX_END, ABORT and reset. -/
def Obligations.OnlySessionCommandsWriteMode : Prop :=
  ∀ s t : State, step s = .next t → t.mode ≠ s.mode →
    ∃ x rest, s.host = x :: rest ∧
      (x = .reset ∧ t.mode = .idle ∨
        ∃ w i, x = .wr 0x00 w ∧ decode w = .ok i ∧
          (i = .txStart ∧ s.mode = .idle ∧ t.mode = .tx ∨
            (∃ b, i = .txByte b) ∧ s.mode = .tx ∧ t.mode = .idle ∧ t.txRemain = 0 ∨
            i = .rxStart ∧ s.mode = .idle ∧ t.mode = .rx ∨
            i = .rxEnd ∧ s.mode = .rx ∧ t.mode = .idle ∨
            i = .abort ∧ t.mode = .idle))

/-- R19, R121: CONFIG, TX_TOTAL, BPTR and BUF_DATA are constant for the whole of a session, whatever the host does
but reset. -/
def Obligations.SessionLocksConfiguration : Prop :=
  ∀ s t : State, step s = .next t → s.mode ≠ .idle → (∀ rest, s.host ≠ .reset :: rest) →
    t.frameSize = s.frameSize ∧ t.allowSkip = s.allowSkip ∧ t.seqMode = s.seqMode ∧ t.txTotal = s.txTotal ∧
      t.bptr = s.bptr ∧ t.bufData = s.bufData

/-- R10, R13: no command touches CONFIG, TX_TOTAL, the reset draws, the parameters or the host's side. -/
def Obligations.CommandsLeaveConfigurationAndHost : Prop :=
  ∀ (i : Instr) (s t : State), exec i s = .next t →
    t.frameSize = s.frameSize ∧ t.allowSkip = s.allowSkip ∧ t.seqMode = s.seqMode ∧ t.txTotal = s.txTotal ∧
      t.draw = s.draw ∧ t.params = s.params ∧ t.resets = s.resets ∧ t.host = s.host ∧ t.reads = s.reads

/-- R30: RX_START sets EXPECTED to 0, and after that only an admitted frame changes it: the one whose RX_ACCEPT event
the output stream then ends with. -/
def Obligations.OnlyAdmittedFramesMoveExpected : Prop :=
  ∀ (i : Instr) (s t : State), exec i s = .next t → t.expected ≠ s.expected →
    i = .rxStart ∧ t.expected = 0 ∨
      ∃ b idx len items, i = .rxByte b ∧ t.out = s.out ++ items ++ [.event (.rxAccept idx len)] ∧
        t.expected = seqUpdate idx s.seqMode

/-- R27, R28, R29, R17: of the commands only FRM_DECODE and RX_BYTE write the decode registers; a frame that fails
its checksum leaves RX_INDEX and RX_LENGTH, and clears LEN_OVER. -/
def Obligations.OnlyFrameChecksWriteDecodeRegisters : Prop :=
  ∀ (i : Instr) (s t : State), exec i s = .next t →
    (t.rxIndex, t.rxLength, t.rxStored, t.rxCalc, t.lenOver) ≠
        (s.rxIndex, s.rxLength, s.rxStored, s.rxCalc, s.lenOver) →
    (i = .frmDecode ∨ ∃ b, i = .rxByte b) ∧ t.crc = t.rxCalc ∧
      (t.rxStored ≠ t.rxCalc → t.rxIndex = s.rxIndex ∧ t.rxLength = s.rxLength ∧ t.lenOver = false) ∧
      (t.rxStored = t.rxCalc → t.lenOver = decide (s.frameSize.toNat - 6 < t.rxLength.toNat))

/-- R118, R32: which bytes of FBUF a command may change. BUF_WRITE: the byte at BPTR. FRM_ENCODE: the frame's.
TX_BYTE: the byte it stores, and the frame's. RX_BYTE: the byte it stores. Every other command: none. -/
def Obligations.CommandsWriteOnlyTheirBytes : Prop :=
  ∀ (i : Instr) (s t : State), exec i s = .next t → ∀ j, t.byteAt j ≠ s.byteAt j →
    (∃ b, i = .bufWrite b) ∧ j = s.bptr.toNat ∨
      i = .frmEncode ∧ j < s.frameSize.toNat ∨
      (∃ b, i = .txByte b) ∧ j < s.frameSize.toNat ∨
      (∃ b, i = .rxByte b) ∧ j = s.fcount.toNat

/-- The buffer's canonical form (assumption log 6): two buffers in canonical form that read the same are the same
data. -/
def Obligations.EqualBuffersAreEqualData : Prop :=
  ∀ (draw : List Byte) (m n : List Host.Cell), Memory.wf draw m → Memory.wf draw n →
    (∀ i, Memory.read draw m i = Memory.read draw n i) → m = n

/-! ## Control commands (45_control.md) -/

/-- R93. -/
def Obligations.NopOnlyClearsResult : Prop :=
  encode .nop = 0x00000000 ∧ IllegalFormsRefused 0x00 0xFFFFFFFF ∧
    ∀ s : State, exec .nop s = .next { s with result := .ok }

/-- R94. -/
def Obligations.AbortEndsTheSessionSilently : Prop :=
  encode .abort = 0x00000060 ∧ IllegalFormsRefused 0x60 0xFFFFFFFF ∧
    ∀ s : State, exec .abort s = .next { s with mode := .idle, fcount := 0, phase := .frame, result := .ok }

/-! ## CRC engine (40_crc.md) -/

/-- R58, R59: an MSB-first CrcStep is one byte of polynomial division: what it returns is the remainder of
`(c ^ (b << 8)) · x^8` by the generator `x^16 + CRC_POLY(x)` over GF(2). -/
def Obligations.CrcStepIsDivisionByTheGenerator : Prop :=
  ∀ (p : Config.Params) (c : Half) (b : Byte), p.crcReflect = false →
    ∃ q : Byte, ((c ^^^ (b.setWidth 16 <<< 8)).setWidth 24 : BitVec 24) <<< 8 =
      carrylessMul q ((1 : BitVec 24) <<< 16 ||| p.crcPoly.setWidth 24) ^^^ (crcStep p c b).setWidth 24

/-- R58, R59: the reflected engine is the MSB-first engine on mirrored states and mirrored bytes. -/
def Obligations.ReflectedCrcStepIsTheMirrorImage : Prop :=
  ∀ (n : Nat) (poly c : Half) (b : Byte),
    crcStep { fbufSize := n, crcPoly := poly, crcReflect := true } c b =
      (crcStep { fbufSize := n, crcPoly := poly, crcReflect := false } c.reverse b.reverse).reverse

/-- R63: the CRC is linear over GF(2): the fold of two xored streams of one length, from two xored states, is the xor
of their folds. -/
def Obligations.CrcFoldIsLinear : Prop :=
  ∀ (p : Config.Params) (c d : Half) (u v : List Byte), u.length = v.length →
    crcFold p (c ^^^ d) (List.zipWith (· ^^^ ·) u v) = crcFold p c u ^^^ crcFold p d v

/-- R63: with the polynomials R8 allows, every change of a stream that is confined to two neighbouring bytes changes
its CRC, so every change of 16 consecutive bits that two bytes hold, of one byte, and of one bit. -/
def Obligations.CrcDetectsChangesInTwoNeighbouringBytes : Prop :=
  ∀ (p : Config.Params) (before after : List Byte) (x y x' y' : Byte), p.legal → (x, y) ≠ (x', y') →
    crcCompute p (before ++ [x, y] ++ after) ≠ crcCompute p (before ++ [x', y'] ++ after)

/-- R64. -/
def Obligations.CrcInitSeedsTheEngine : Prop :=
  encode .crcInit = 0x00000010 ∧ IllegalFormsRefused 0x10 0xFFFFFFFF ∧
    ∀ s : State,
      (s.mode = .idle → exec .crcInit s = .next { s with crc := 0xFFFF, result := .ok }) ∧
        (s.mode ≠ .idle → exec .crcInit s = .next { s with result := .errBusy })

/-- R65. -/
def Obligations.CrcStepFoldsOneByte : Prop :=
  IllegalFormsRefused 0x11 0xFFFF00FF ∧
    ∀ (b : Byte) (s : State),
      (encode (.crcStep b)).toNat = 0x11 + 256 * b.toNat ∧
        (s.mode = .idle → exec (.crcStep b) s = .next { s with crc := crcStep s.params s.crc b, result := .ok }) ∧
        (s.mode ≠ .idle → exec (.crcStep b) s = .next { s with result := .errBusy })

/-- R66, R38: the checksum of the range, seeded with 0xFFFF whatever CRC held, BPTR unchanged; ERR_RANGE where the
range passes the end of FBUF, computed without wrap-around. -/
def Obligations.CrcBulkChecksumsTheRange : Prop :=
  IllegalFormsRefused 0x12 0x0000FFFF ∧
    ∀ (n : Half) (s : State),
      (encode (.crcBulk n)).toNat = 0x12 + 65536 * n.toNat ∧
        (s.mode = .idle → s.bptr.toNat + n.toNat ≤ s.params.fbufSize →
          ∃ bytes : List Byte, bytes.length = n.toNat ∧
            (∀ k, k < n.toNat → bytes[k]? = some (s.byteAt (s.bptr.toNat + k))) ∧
            exec (.crcBulk n) s = .next { s with crc := crcCompute s.params bytes, result := .ok }) ∧
        (s.mode = .idle → s.params.fbufSize < s.bptr.toNat + n.toNat →
          exec (.crcBulk n) s = .next { s with result := .errRange }) ∧
        (s.mode ≠ .idle → exec (.crcBulk n) s = .next { s with result := .errBusy })

/-- R61: folding a stream in two parts is folding it whole; and from CRC = 0xFFFF, CRC_STEP on each byte of a range of
FBUF ends in the very state that CRC_BULK over the range gives. -/
def Obligations.IncrementalAndBulkCrcAgree : Prop :=
  (∀ (p : Config.Params) (u v : List Byte), crcCompute p (u ++ v) = v.foldl (crcStep p) (crcCompute p u)) ∧
    ∀ (s : State) (n : Half), s.mode = .idle → s.crc = 0xFFFF → 0 < n.toNat →
      s.bptr.toNat + n.toNat ≤ s.params.fbufSize →
      execAll ((s.bytesFrom s.bptr.toNat n.toNat).map Instr.crcStep) s = exec (.crcBulk n) s

/-! ## Frame buffer access (41_buffer.md) -/

/-- R67: any 16-bit value is stored. -/
def Obligations.BufSetptrStoresThePointer : Prop :=
  IllegalFormsRefused 0x20 0x0000FFFF ∧
    ∀ (a : Half) (s : State),
      (encode (.bufSetptr a)).toNat = 0x20 + 65536 * a.toNat ∧
        (s.mode = .idle → exec (.bufSetptr a) s = .next { s with bptr := a, result := .ok }) ∧
        (s.mode ≠ .idle → exec (.bufSetptr a) s = .next { s with result := .errBusy })

/-- R68: the byte at BPTR takes the operand and every other byte keeps its value; BPTR goes one up, with no wrap. -/
def Obligations.BufWriteStoresOneByte : Prop :=
  IllegalFormsRefused 0x21 0xFFFF00FF ∧
    ∀ (b : Byte) (s : State),
      (encode (.bufWrite b)).toNat = 0x21 + 256 * b.toNat ∧
        (s.mode = .idle → s.bptr.toNat < s.params.fbufSize →
          ∃ t, exec (.bufWrite b) s = .next t ∧
            t = { s with fbuf := t.fbuf, bptr := s.bptr + 1, result := .ok } ∧
            (s.params.legal → t.bptr.toNat = s.bptr.toNat + 1) ∧
            t.byteAt s.bptr.toNat = b ∧ ∀ j, j ≠ s.bptr.toNat → t.byteAt j = s.byteAt j) ∧
        (s.mode = .idle → s.params.fbufSize ≤ s.bptr.toNat →
          exec (.bufWrite b) s = .next { s with result := .errRange }) ∧
        (s.mode ≠ .idle → exec (.bufWrite b) s = .next { s with result := .errBusy })

/-- R69. -/
def Obligations.BufReadLoadsOneByte : Prop :=
  encode .bufRead = 0x00000022 ∧ IllegalFormsRefused 0x22 0xFFFFFFFF ∧
    ∀ s : State,
      (s.mode = .idle → s.bptr.toNat < s.params.fbufSize →
        exec .bufRead s = .next { s with bufData := s.byteAt s.bptr.toNat, bptr := s.bptr + 1, result := .ok }) ∧
      (s.mode = .idle → s.params.fbufSize ≤ s.bptr.toNat → exec .bufRead s = .next { s with result := .errRange }) ∧
      (s.mode ≠ .idle → exec .bufRead s = .next { s with result := .errBusy })

/-! ## Frame codec (42_codec.md) -/

/-- R70, R71, R39: an encoded frame byte by byte: little-endian index and length, the payload, zeros up to P, and the
little-endian checksum of the first P + 4 bytes. -/
def Obligations.EncodedFrameHasItsLayout : Prop :=
  ∀ (p : Config.Params) (index len : Half) (cap : Nat) (pl : List Byte), pl.length ≤ cap →
    ∃ f, f = frameEncode p index len cap pl ∧ f.length = cap + 6 ∧
      (f.getD 0 0).toNat + 256 * (f.getD 1 0).toNat = index.toNat ∧
      (f.getD 2 0).toNat + 256 * (f.getD 3 0).toNat = len.toNat ∧
      (∀ k, k < pl.length → f[4 + k]? = pl[k]?) ∧
      (∀ k, pl.length ≤ k → k < cap → f[4 + k]? = some 0) ∧
      (f.getD (cap + 4) 0).toNat + 256 * (f.getD (cap + 5) 0).toNat = (crcCompute p (f.take (cap + 4))).toNat

/-- R73: Decode gives back what Encode was given, with the padding; and with the polynomials R8 allows, changing one
bit of the first P + 4 bytes of a frame that Decode accepts makes Decode report a mismatch. -/
def Obligations.DecodeInvertsEncodeAndDetectsTampering : Prop :=
  (∀ (p : Config.Params) (index len : Half) (cap : Nat) (pl : List Byte), len.toNat ≤ cap → pl.length = len.toNat →
      frameDecode p (frameEncode p index len cap pl) cap =
        .ok index len (pl ++ List.replicate (cap - len.toNat) 0)) ∧
    ∀ (p : Config.Params) (cap : Nat) (f : List Byte) (index len : Half) (pl : List Byte) (i bit : Nat),
      p.legal → f.length = cap + 6 → frameDecode p f cap = .ok index len pl → i < cap + 4 → bit < 8 →
      ∃ stored computed,
        frameDecode p (f.set i (f.getD i 0 ^^^ ((1 : Byte) <<< bit))) cap = .mismatch stored computed

/-- R76, R74: FRM_ENCODE makes the first FRAME_SIZE bytes of FBUF the encoded frame of TX_INDEX, TX_LENGTH and the
payload that was there, leaves every byte above, and writes CRC and RESULT besides. -/
def Obligations.FrmEncodeBuildsTheFrame : Prop :=
  encode .frmEncode = 0x00000030 ∧ IllegalFormsRefused 0x30 0xFFFFFFFF ∧
    ∀ s : State,
      (s.mode ≠ .idle → exec .frmEncode s = .next { s with result := .errBusy }) ∧
      (s.mode = .idle → ¬(7 ≤ s.frameSize.toNat ∧ s.frameSize.toNat ≤ s.params.fbufSize) →
        exec .frmEncode s = .next { s with result := .errConfig }) ∧
      (s.mode = .idle → 7 ≤ s.frameSize.toNat → s.frameSize.toNat ≤ s.params.fbufSize →
        s.frameSize.toNat - 6 < s.txLength.toNat → exec .frmEncode s = .next { s with result := .errLength }) ∧
      (s.mode = .idle → 7 ≤ s.frameSize.toNat → s.frameSize.toNat ≤ s.params.fbufSize →
        s.txLength.toNat ≤ s.frameSize.toNat - 6 →
        ∃ t f, exec .frmEncode s = .next t ∧
          f = frameEncode s.params s.txIndex s.txLength (s.frameSize.toNat - 6) (s.bytesFrom 4 s.txLength.toNat) ∧
          t = { s with fbuf := t.fbuf, crc := crcCompute s.params (f.take (s.frameSize.toNat - 2)), result := .ok } ∧
          t.bytesFrom 0 s.frameSize.toNat = f ∧ ∀ j, s.frameSize.toNat ≤ j → t.byteAt j = s.byteAt j)

/-- R77, R75, R72: FRM_DECODE reports what Decode says of the first FRAME_SIZE bytes of FBUF; the decode registers
take the values R75 gives them, and FBUF is unchanged. -/
def Obligations.FrmDecodeChecksTheFrame : Prop :=
  encode .frmDecode = 0x00000031 ∧ IllegalFormsRefused 0x31 0xFFFFFFFF ∧
    ∀ s : State,
      (s.mode ≠ .idle → exec .frmDecode s = .next { s with result := .errBusy }) ∧
      (s.mode = .idle → ¬(7 ≤ s.frameSize.toNat ∧ s.frameSize.toNat ≤ s.params.fbufSize) →
        exec .frmDecode s = .next { s with result := .errConfig }) ∧
      (s.mode = .idle → 7 ≤ s.frameSize.toNat → s.frameSize.toNat ≤ s.params.fbufSize →
        match frameDecode s.params (s.bytesFrom 0 s.frameSize.toNat) (s.frameSize.toNat - 6) with
        | .mismatch stored computed =>
          computed = crcCompute s.params (s.bytesFrom 0 (s.frameSize.toNat - 2)) ∧ stored ≠ computed ∧
          stored = le16 (s.byteAt (s.frameSize.toNat - 2)) (s.byteAt (s.frameSize.toNat - 1)) ∧
          exec .frmDecode s = .next { s with
            rxStored := stored, rxCalc := computed, crc := computed, lenOver := false, result := .crcMismatch }
        | .ok index len _ =>
          index = le16 (s.byteAt 0) (s.byteAt 1) ∧ len = le16 (s.byteAt 2) (s.byteAt 3) ∧
          ∃ c, c = crcCompute s.params (s.bytesFrom 0 (s.frameSize.toNat - 2)) ∧
            c = le16 (s.byteAt (s.frameSize.toNat - 2)) (s.byteAt (s.frameSize.toNat - 1)) ∧
            exec .frmDecode s = .next { s with
              rxStored := c, rxCalc := c, crc := c, rxIndex := index, rxLength := len
              lenOver := decide (s.frameSize.toNat - 6 < len.toNat), result := .ok })

/-! ## Splitter (43_splitter.md) -/

/-- R79: the frame count is ceil(L / P); every frame but the last declares P bytes, the last one L mod P, or P when L
is a nonzero multiple of P; and the declared payload bytes of the frames, in order, are the stream. -/
def Obligations.SplitPartitionsTheStream : Prop :=
  ∀ (p : Config.Params) (d : List Byte) (cap : Nat), 1 ≤ cap →
    ∃ n, (splitFrames p d cap).length = n ∧ d.length ≤ n * cap ∧ (∀ m, d.length ≤ m * cap → n ≤ m) ∧
      (∀ (k : Nat) (f : SplitFrame), (splitFrames p d cap)[k]? = some f →
        f.index = k ∧ (k + 1 < n → f.length = cap) ∧
          (k + 1 = n → f.length = if d.length % cap = 0 then cap else d.length % cap) ∧
          f.bytes.length = cap + 6) ∧
      (splitFrames p d cap).flatMap (fun f => (f.bytes.drop 4).take f.length) = d

/-- R80: TX_START starts a session of TX_TOTAL bytes, ends at once with TX_DONE(0) when there are none, and refuses an
invalid FRAME_SIZE and more than 65536 frames. -/
def Obligations.TxStartOpensTheSession : Prop :=
  encode .txStart = 0x00000040 ∧ IllegalFormsRefused 0x40 0xFFFFFFFF ∧
    ∀ s : State,
      (s.mode ≠ .idle → exec .txStart s = .next { s with result := .errBusy }) ∧
      (s.mode = .idle → ¬(7 ≤ s.frameSize.toNat ∧ s.frameSize.toNat ≤ s.params.fbufSize) →
        exec .txStart s = .next { s with result := .errConfig }) ∧
      (s.mode = .idle → 7 ≤ s.frameSize.toNat → s.frameSize.toNat ≤ s.params.fbufSize →
        (65536 * (s.frameSize.toNat - 6) < s.txTotal.toNat →
          exec .txStart s = .next { s with result := .errCapacity }) ∧
        (s.txTotal = 0 →
          exec .txStart s = .next { s with
            txIndex := 0, txRemain := 0, fcount := 0, phase := .frame, result := .ok
            out := s.out ++ [.event (.txDone 0)] }) ∧
        (s.txTotal ≠ 0 → s.txTotal.toNat ≤ 65536 * (s.frameSize.toNat - 6) →
          exec .txStart s = .next { s with
            txIndex := 0, txRemain := s.txTotal, fcount := 0, phase := .frame, mode := .tx, result := .ok }))

/-- R81: TX_BYTE in an encode session whose sequencing registers are in range. The byte goes to FBUF[4 + FCOUNT]; when
it completes a frame, the encoded frame is in FBUF and is emitted, then its event; after the last byte TX_DONE is
emitted and MODE is IDLE. -/
def Obligations.TxByteFeedsTheSplitter : Prop :=
  IllegalFormsRefused 0x41 0xFFFF00FF ∧
    ∀ (b : Byte) (s : State),
      (encode (.txByte b)).toNat = 0x41 + 256 * b.toNat ∧
      (s.mode = .idle → exec (.txByte b) s = .next { s with result := .errState }) ∧
      (s.mode = .rx → exec (.txByte b) s = .next { s with result := .errBusy }) ∧
      (s.mode = .tx → 7 ≤ s.frameSize.toNat → s.frameSize.toNat ≤ s.params.fbufSize →
        s.fcount.toNat < s.frameSize.toNat - 6 → 0 < s.txRemain.toNat →
        (s.fcount.toNat + 1 ≠ s.frameSize.toNat - 6 → s.txRemain ≠ 1 →
          ∃ t, exec (.txByte b) s = .next t ∧
            t = { s with fbuf := t.fbuf, fcount := s.fcount + 1, txRemain := s.txRemain - 1, result := .ok } ∧
            t.byteAt (4 + s.fcount.toNat) = b ∧
            ∀ j, j ≠ 4 + s.fcount.toNat → t.byteAt j = s.byteAt j) ∧
        (s.fcount.toNat + 1 = s.frameSize.toNat - 6 ∨ s.txRemain = 1 →
          ∃ t f, exec (.txByte b) s = .next t ∧
            f = frameEncode s.params s.txIndex (s.fcount + 1) (s.frameSize.toNat - 6)
              (s.bytesFrom 4 s.fcount.toNat ++ [b]) ∧
            t.bytesFrom 0 s.frameSize.toNat = f ∧ (∀ j, s.frameSize.toNat ≤ j → t.byteAt j = s.byteAt j) ∧
            (s.txRemain ≠ 1 →
              t = { s with
                fbuf := t.fbuf, crc := crcCompute s.params (f.take (s.frameSize.toNat - 2))
                txLength := s.fcount + 1, txIndex := s.txIndex + 1, txRemain := s.txRemain - 1, fcount := 0
                out := s.out ++ (f.map Item.data ++ [.event (.txFrame s.txIndex (s.fcount + 1))])
                result := .ok }) ∧
            (s.txRemain = 1 →
              t = { s with
                fbuf := t.fbuf, crc := crcCompute s.params (f.take (s.frameSize.toNat - 2))
                txLength := s.fcount + 1, txIndex := s.txIndex + 1, txRemain := 0, fcount := 0, mode := .idle
                out := s.out ++ (f.map Item.data ++ [.event (.txFrame s.txIndex (s.fcount + 1)),
                  .event (.txDone (BitVec.ofNat 17
                    ((s.txTotal.toNat + (s.frameSize.toNat - 6) - 1) / (s.frameSize.toNat - 6))))])
                result := .ok })))

/-- What the spec derives in its rule about a whole encode session (43_splitter.md, after R81): from IDLE with a valid
FRAME_SIZE, TX_START and the bytes of a stream of TX_TOTAL bytes emit exactly the frames of Split, each with its
event, and TX_DONE; and the session ends. The commands are written to CMD as words. -/
def Obligations.EncodeSessionEmitsTheSplitFrames : Prop :=
  ∀ (s : State) (d : List Byte), s.mode = .idle → 7 ≤ s.frameSize.toNat → s.frameSize.toNat ≤ s.params.fbufSize →
    s.txTotal.toNat = d.length → d.length ≤ 65536 * (s.frameSize.toNat - 6) →
    ∃ t, Sys2Proof.core.run (d.length + 1) (s.withCommands (.txStart :: d.map Instr.txByte)) = .next t ∧
      t.out = s.out ++ encodeSessionItems s.params d (s.frameSize.toNat - 6) ∧
      t.mode = .idle ∧ t.result = .ok ∧ t.txRemain = 0 ∧ t.fcount = 0 ∧ t.host = s.host ∧
      t.txIndex.toNat = (splitFrames s.params d (s.frameSize.toNat - 6)).length % 65536

/-! ## Reassembler (44_reassembler.md) -/

/-- R84, R85, R86, R87, R101: what Process makes of one frame: no bytes or the declared payload, then exactly one
event; payload and a new expected index exactly for an admitted frame of legal length. -/
def Obligations.ProcessEmitsOneVerdictPerFrame : Prop :=
  ∀ (p : Config.Params) (f : List Byte) (expected : Half) (cap : Nat) (skip : Bool) (seq : SeqMode),
    f.length = cap + 6 →
    ∃ (computed stored index len : Half), computed = crcCompute p (f.take (cap + 4)) ∧
      stored = le16 (f.getD (cap + 4) 0) (f.getD (cap + 5) 0) ∧ index = le16 (f.getD 0 0) (f.getD 1 0) ∧
      len = le16 (f.getD 2 0) (f.getD 3 0) ∧
      (computed ≠ stored →
        processFrame p f expected cap skip seq = (expected, [.event (.rxCrcFail index stored computed)])) ∧
      (computed = stored →
        (skip = false → index ≠ expected →
          processFrame p f expected cap skip seq = (expected, [.event (.rxSeqReject index expected)])) ∧
        (skip = true → index.toNat < expected.toNat →
          processFrame p f expected cap skip seq = (expected, [.event (.rxSeqReject index expected)])) ∧
        ((skip = false ∧ index = expected) ∨ (skip = true ∧ expected.toNat ≤ index.toNat) →
          (cap < len.toNat →
            processFrame p f expected cap skip seq = (expected, [.event (.rxLenReject index len)])) ∧
          (len.toNat ≤ cap →
            ∃ payload : List Byte, payload.length = len.toNat ∧
              (∀ k, k < len.toNat → payload[k]? = f[4 + k]?) ∧
              processFrame p f expected cap skip seq =
                (if seq = .pin then index else index + 1,
                  payload.map Item.data ++ [.event (.rxAccept index len)]))))

/-- What the spec derives of the four policies (44_reassembler.md section 1, 70_reset_and_hazards.md R123): which
index is admitted after a frame of index k was. -/
def Obligations.AdmissionAfterAnAdmittedFrame : Prop :=
  ∀ k idx : Half,
    (admits idx (seqUpdate k .pin) false = true ↔ idx = k) ∧
      (admits idx (seqUpdate k .advance) false = true ↔ idx.toNat = (k.toNat + 1) % 65536) ∧
      (admits idx (seqUpdate k .pin) true = true ↔ k.toNat ≤ idx.toNat) ∧
      (k ≠ 0xFFFF → (admits idx (seqUpdate k .advance) true = true ↔ k.toNat < idx.toNat)) ∧
      (k = 0xFFFF → admits idx (seqUpdate k .advance) true = true)

/-- R88. -/
def Obligations.RxStartOpensTheSession : Prop :=
  encode .rxStart = 0x00000050 ∧ IllegalFormsRefused 0x50 0xFFFFFFFF ∧
    ∀ s : State,
      (s.mode ≠ .idle → exec .rxStart s = .next { s with result := .errBusy }) ∧
      (s.mode = .idle → ¬(7 ≤ s.frameSize.toNat ∧ s.frameSize.toNat ≤ s.params.fbufSize) →
        exec .rxStart s = .next { s with result := .errConfig }) ∧
      (s.mode = .idle → 7 ≤ s.frameSize.toNat → s.frameSize.toNat ≤ s.params.fbufSize →
        exec .rxStart s = .next { s with
          expected := 0, fcount := 0, phase := .frame, mode := .rx, result := .ok })

/-- R89: RX_BYTE in a decode session. A separator is discarded whatever its value; a frame byte goes to FBUF[FCOUNT];
the byte that completes the frame makes the registers CheckFrame's and the items and EXPECTED Process's (R84). -/
def Obligations.RxByteFeedsTheReassembler : Prop :=
  IllegalFormsRefused 0x51 0xFFFF00FF ∧
    ∀ (b : Byte) (s : State),
      (encode (.rxByte b)).toNat = 0x51 + 256 * b.toNat ∧
      (s.mode = .idle → exec (.rxByte b) s = .next { s with result := .errState }) ∧
      (s.mode = .tx → exec (.rxByte b) s = .next { s with result := .errBusy }) ∧
      (s.mode = .rx → s.phase = .separator →
        exec (.rxByte b) s = .next { s with phase := .frame, result := .ok }) ∧
      (s.mode = .rx → s.phase = .frame → 7 ≤ s.frameSize.toNat → s.frameSize.toNat ≤ s.params.fbufSize →
        (s.fcount.toNat + 1 < s.frameSize.toNat →
          ∃ t, exec (.rxByte b) s = .next t ∧
            t = { s with fbuf := t.fbuf, fcount := s.fcount + 1, result := .ok } ∧
            t.byteAt s.fcount.toNat = b ∧ ∀ j, j ≠ s.fcount.toNat → t.byteAt j = s.byteAt j) ∧
        (s.fcount.toNat + 1 = s.frameSize.toNat →
          ∃ (t : State) (f : List Byte) (computed stored : Half), exec (.rxByte b) s = .next t ∧
            f = s.bytesFrom 0 s.fcount.toNat ++ [b] ∧
            computed = crcCompute s.params (f.take (s.frameSize.toNat - 2)) ∧
            stored = le16 (f.getD (s.frameSize.toNat - 2) 0) (f.getD (s.frameSize.toNat - 1) 0) ∧
            t.byteAt s.fcount.toNat = b ∧ (∀ j, j ≠ s.fcount.toNat → t.byteAt j = s.byteAt j) ∧
            t = { s with
              fbuf := t.fbuf, fcount := 0, phase := .separator
              rxStored := stored, rxCalc := computed, crc := computed
              rxIndex := if computed = stored then le16 (f.getD 0 0) (f.getD 1 0) else s.rxIndex
              rxLength := if computed = stored then le16 (f.getD 2 0) (f.getD 3 0) else s.rxLength
              lenOver := decide (computed = stored ∧
                s.frameSize.toNat - 6 < (le16 (f.getD 2 0) (f.getD 3 0)).toNat)
              expected := (processFrame s.params f s.expected (s.frameSize.toNat - 6) s.allowSkip s.seqMode).1
              out := s.out ++
                (processFrame s.params f s.expected (s.frameSize.toNat - 6) s.allowSkip s.seqMode).2
              result := .ok }))

/-- R90: RX_END reports how many bytes of an incomplete frame it discards, and ends the session. -/
def Obligations.RxEndClosesTheSession : Prop :=
  encode .rxEnd = 0x00000052 ∧ IllegalFormsRefused 0x52 0xFFFFFFFF ∧
    ∀ s : State,
      (s.mode = .idle → exec .rxEnd s = .next { s with result := .errState }) ∧
      (s.mode = .tx → exec .rxEnd s = .next { s with result := .errBusy }) ∧
      (s.mode = .rx →
        exec .rxEnd s = .next { s with
          mode := .idle, fcount := 0, phase := .frame, result := .ok
          out := s.out ++ [.event (.rxEnd (if s.phase = .frame then s.fcount else 0))] })

/-- What the spec derives in its rule about a whole decode session (44_reassembler.md, after R90): from IDLE with a
valid CONFIG, RX_START, the bytes of any stream and RX_END emit exactly what Reassemble (R83) returns, and leave
its final expected index in EXPECTED. The commands are written to CMD as words. -/
def Obligations.DecodeSessionIsReassemble : Prop :=
  ∀ (s : State) (stream : List Byte), s.mode = .idle → 7 ≤ s.frameSize.toNat →
    s.frameSize.toNat ≤ s.params.fbufSize →
    ∃ t, Sys2Proof.core.run (stream.length + 2)
        (s.withCommands (.rxStart :: stream.map Instr.rxByte ++ [.rxEnd])) = .next t ∧
      t.out = s.out ++ (reassemble s.params stream s.frameSize.toNat s.allowSkip s.seqMode).2 ∧
      t.expected = (reassemble s.params stream s.frameSize.toNat s.allowSkip s.seqMode).1 ∧
      t.mode = .idle ∧ t.result = .ok ∧ t.fcount = 0 ∧ t.phase = .frame ∧ t.host = s.host

/-- What the spec derives as the round trip (44_reassembler.md, after its session rule): the frames of Split, each
followed by one separator of any value, reassemble in strict ADVANCE mode to the stream. In PIN mode they give the
stream for one frame at most, and frame 0's payload for more. The last separator may be missing. -/
def Obligations.SplitThenReassembleIsTheIdentity : Prop :=
  ∀ (p : Config.Params) (d : List Byte) (cap : Nat) (sep : Nat → Byte) (stream : List Byte) (seq : SeqMode),
    1 ≤ cap → cap + 6 ≤ 65535 → d.length ≤ 65536 * cap →
    stream = (splitFrames p d cap).flatMap (fun f => f.bytes ++ [sep f.index]) →
    dataItems (reassemble p stream (cap + 6) false .advance).2 = d ∧
      (d.length ≤ cap → dataItems (reassemble p stream (cap + 6) false .pin).2 = d) ∧
      (cap < d.length → dataItems (reassemble p stream (cap + 6) false .pin).2 = d.take cap) ∧
      reassemble p stream.dropLast (cap + 6) false seq = reassemble p stream (cap + 6) false seq
end

