-- ==== Sys2Proof/Laws/Crc.lean ====
section
/-! SUPPORT. The CRC fold (40_crc.md R60). -/

namespace Sys2Proof.Machine

@[simp] theorem crcFold_nil (p : Config.Params) (c : Half) : crcFold p c [] = c := rfl

@[simp] theorem crcFold_cons (p : Config.Params) (c : Half) (b : Byte) (bs : List Byte) :
    crcFold p c (b :: bs) = crcFold p (crcStep p c b) bs := rfl

theorem crcFold_append (p : Config.Params) (c : Half) (u v : List Byte) :
    crcFold p c (u ++ v) = crcFold p (crcFold p c u) v := by
  induction u generalizing c with
  | nil => rfl
  | cons b u ih => exact ih (crcStep p c b)

/-- The checksum of the empty sequence is the seed. -/
@[simp] theorem crcCompute_nil (p : Config.Params) : crcCompute p [] = 0xFFFF := rfl

end Sys2Proof.Machine
end

