-- ==== Sys2Proof/Laws/State.lean ====
section
/-! SUPPORT. One lemma per field per named update of the state, each true by rfl. -/

namespace Sys2Proof.Machine

@[simp] theorem State.fail_eq (s : State) (r : Result) : s.fail r = s.setResult r := rfl
@[simp] theorem State.done_eq (s : State) : s.done = s.setResult .ok := rfl
@[simp] theorem State.setResult_setResult (s : State) (r r' : Result) :
    (s.setResult r).setResult r' = s.setResult r' := rfl
@[simp] theorem State.setResult_self (s : State) : s.setResult s.result = s := rfl
@[simp] theorem State.setBytes_nil (s : State) (i : Nat) : s.setBytes i [] = s := rfl
theorem State.setBytes_cons (s : State) (i : Nat) (b : Byte) (bs : List Byte) :
    s.setBytes i (b :: bs) = (s.setByte i b).setBytes (i + 1) bs := rfl

@[simp] theorem State.setResult_mode (s : State) (r : Result) : (s.setResult r).mode = s.mode := rfl
@[simp] theorem State.setResult_result (s : State) (r : Result) : (s.setResult r).result = r := rfl
@[simp] theorem State.setResult_lenOver (s : State) (r : Result) : (s.setResult r).lenOver = s.lenOver := rfl
@[simp] theorem State.setResult_frameSize (s : State) (r : Result) : (s.setResult r).frameSize = s.frameSize := rfl
@[simp] theorem State.setResult_allowSkip (s : State) (r : Result) : (s.setResult r).allowSkip = s.allowSkip := rfl
@[simp] theorem State.setResult_seqMode (s : State) (r : Result) : (s.setResult r).seqMode = s.seqMode := rfl
@[simp] theorem State.setResult_crc (s : State) (r : Result) : (s.setResult r).crc = s.crc := rfl
@[simp] theorem State.setResult_bptr (s : State) (r : Result) : (s.setResult r).bptr = s.bptr := rfl
@[simp] theorem State.setResult_bufData (s : State) (r : Result) : (s.setResult r).bufData = s.bufData := rfl
@[simp] theorem State.setResult_txIndex (s : State) (r : Result) : (s.setResult r).txIndex = s.txIndex := rfl
@[simp] theorem State.setResult_txLength (s : State) (r : Result) : (s.setResult r).txLength = s.txLength := rfl
@[simp] theorem State.setResult_txTotal (s : State) (r : Result) : (s.setResult r).txTotal = s.txTotal := rfl
@[simp] theorem State.setResult_txRemain (s : State) (r : Result) : (s.setResult r).txRemain = s.txRemain := rfl
@[simp] theorem State.setResult_rxIndex (s : State) (r : Result) : (s.setResult r).rxIndex = s.rxIndex := rfl
@[simp] theorem State.setResult_rxLength (s : State) (r : Result) : (s.setResult r).rxLength = s.rxLength := rfl
@[simp] theorem State.setResult_rxStored (s : State) (r : Result) : (s.setResult r).rxStored = s.rxStored := rfl
@[simp] theorem State.setResult_rxCalc (s : State) (r : Result) : (s.setResult r).rxCalc = s.rxCalc := rfl
@[simp] theorem State.setResult_expected (s : State) (r : Result) : (s.setResult r).expected = s.expected := rfl
@[simp] theorem State.setResult_fcount (s : State) (r : Result) : (s.setResult r).fcount = s.fcount := rfl
@[simp] theorem State.setResult_phase (s : State) (r : Result) : (s.setResult r).phase = s.phase := rfl
@[simp] theorem State.setResult_fbuf (s : State) (r : Result) : (s.setResult r).fbuf = s.fbuf := rfl
@[simp] theorem State.setResult_draw (s : State) (r : Result) : (s.setResult r).draw = s.draw := rfl
@[simp] theorem State.setResult_out (s : State) (r : Result) : (s.setResult r).out = s.out := rfl
@[simp] theorem State.setResult_host (s : State) (r : Result) : (s.setResult r).host = s.host := rfl
@[simp] theorem State.setResult_reads (s : State) (r : Result) : (s.setResult r).reads = s.reads := rfl
@[simp] theorem State.setResult_params (s : State) (r : Result) : (s.setResult r).params = s.params := rfl
@[simp] theorem State.setResult_resets (s : State) (r : Result) : (s.setResult r).resets = s.resets := rfl

@[simp] theorem State.setByte_mode (s : State) (i : Nat) (b : Byte) : (s.setByte i b).mode = s.mode := rfl
@[simp] theorem State.setByte_result (s : State) (i : Nat) (b : Byte) : (s.setByte i b).result = s.result := rfl
@[simp] theorem State.setByte_lenOver (s : State) (i : Nat) (b : Byte) : (s.setByte i b).lenOver = s.lenOver := rfl
@[simp] theorem State.setByte_frameSize (s : State) (i : Nat) (b : Byte) :
    (s.setByte i b).frameSize = s.frameSize := rfl
@[simp] theorem State.setByte_allowSkip (s : State) (i : Nat) (b : Byte) :
    (s.setByte i b).allowSkip = s.allowSkip := rfl
@[simp] theorem State.setByte_seqMode (s : State) (i : Nat) (b : Byte) : (s.setByte i b).seqMode = s.seqMode := rfl
@[simp] theorem State.setByte_crc (s : State) (i : Nat) (b : Byte) : (s.setByte i b).crc = s.crc := rfl
@[simp] theorem State.setByte_bptr (s : State) (i : Nat) (b : Byte) : (s.setByte i b).bptr = s.bptr := rfl
@[simp] theorem State.setByte_bufData (s : State) (i : Nat) (b : Byte) : (s.setByte i b).bufData = s.bufData := rfl
@[simp] theorem State.setByte_txIndex (s : State) (i : Nat) (b : Byte) : (s.setByte i b).txIndex = s.txIndex := rfl
@[simp] theorem State.setByte_txLength (s : State) (i : Nat) (b : Byte) : (s.setByte i b).txLength = s.txLength := rfl
@[simp] theorem State.setByte_txTotal (s : State) (i : Nat) (b : Byte) : (s.setByte i b).txTotal = s.txTotal := rfl
@[simp] theorem State.setByte_txRemain (s : State) (i : Nat) (b : Byte) : (s.setByte i b).txRemain = s.txRemain := rfl
@[simp] theorem State.setByte_rxIndex (s : State) (i : Nat) (b : Byte) : (s.setByte i b).rxIndex = s.rxIndex := rfl
@[simp] theorem State.setByte_rxLength (s : State) (i : Nat) (b : Byte) : (s.setByte i b).rxLength = s.rxLength := rfl
@[simp] theorem State.setByte_rxStored (s : State) (i : Nat) (b : Byte) : (s.setByte i b).rxStored = s.rxStored := rfl
@[simp] theorem State.setByte_rxCalc (s : State) (i : Nat) (b : Byte) : (s.setByte i b).rxCalc = s.rxCalc := rfl
@[simp] theorem State.setByte_expected (s : State) (i : Nat) (b : Byte) : (s.setByte i b).expected = s.expected := rfl
@[simp] theorem State.setByte_fcount (s : State) (i : Nat) (b : Byte) : (s.setByte i b).fcount = s.fcount := rfl
@[simp] theorem State.setByte_phase (s : State) (i : Nat) (b : Byte) : (s.setByte i b).phase = s.phase := rfl
@[simp] theorem State.setByte_fbuf (s : State) (i : Nat) (b : Byte) :
    (s.setByte i b).fbuf = Memory.write s.draw s.fbuf i b := rfl
@[simp] theorem State.setByte_draw (s : State) (i : Nat) (b : Byte) : (s.setByte i b).draw = s.draw := rfl
@[simp] theorem State.setByte_out (s : State) (i : Nat) (b : Byte) : (s.setByte i b).out = s.out := rfl
@[simp] theorem State.setByte_host (s : State) (i : Nat) (b : Byte) : (s.setByte i b).host = s.host := rfl
@[simp] theorem State.setByte_reads (s : State) (i : Nat) (b : Byte) : (s.setByte i b).reads = s.reads := rfl
@[simp] theorem State.setByte_params (s : State) (i : Nat) (b : Byte) : (s.setByte i b).params = s.params := rfl
@[simp] theorem State.setByte_resets (s : State) (i : Nat) (b : Byte) : (s.setByte i b).resets = s.resets := rfl

@[simp] theorem State.setBytes_mode (s : State) (i : Nat) (bs : List Byte) : (s.setBytes i bs).mode = s.mode := rfl
@[simp] theorem State.setBytes_result (s : State) (i : Nat) (bs : List Byte) :
    (s.setBytes i bs).result = s.result := rfl
@[simp] theorem State.setBytes_lenOver (s : State) (i : Nat) (bs : List Byte) :
    (s.setBytes i bs).lenOver = s.lenOver := rfl
@[simp] theorem State.setBytes_frameSize (s : State) (i : Nat) (bs : List Byte) :
    (s.setBytes i bs).frameSize = s.frameSize := rfl
@[simp] theorem State.setBytes_allowSkip (s : State) (i : Nat) (bs : List Byte) :
    (s.setBytes i bs).allowSkip = s.allowSkip := rfl
@[simp] theorem State.setBytes_seqMode (s : State) (i : Nat) (bs : List Byte) :
    (s.setBytes i bs).seqMode = s.seqMode := rfl
@[simp] theorem State.setBytes_crc (s : State) (i : Nat) (bs : List Byte) : (s.setBytes i bs).crc = s.crc := rfl
@[simp] theorem State.setBytes_bptr (s : State) (i : Nat) (bs : List Byte) : (s.setBytes i bs).bptr = s.bptr := rfl
@[simp] theorem State.setBytes_bufData (s : State) (i : Nat) (bs : List Byte) :
    (s.setBytes i bs).bufData = s.bufData := rfl
@[simp] theorem State.setBytes_txIndex (s : State) (i : Nat) (bs : List Byte) :
    (s.setBytes i bs).txIndex = s.txIndex := rfl
@[simp] theorem State.setBytes_txLength (s : State) (i : Nat) (bs : List Byte) :
    (s.setBytes i bs).txLength = s.txLength := rfl
@[simp] theorem State.setBytes_txTotal (s : State) (i : Nat) (bs : List Byte) :
    (s.setBytes i bs).txTotal = s.txTotal := rfl
@[simp] theorem State.setBytes_txRemain (s : State) (i : Nat) (bs : List Byte) :
    (s.setBytes i bs).txRemain = s.txRemain := rfl
@[simp] theorem State.setBytes_rxIndex (s : State) (i : Nat) (bs : List Byte) :
    (s.setBytes i bs).rxIndex = s.rxIndex := rfl
@[simp] theorem State.setBytes_rxLength (s : State) (i : Nat) (bs : List Byte) :
    (s.setBytes i bs).rxLength = s.rxLength := rfl
@[simp] theorem State.setBytes_rxStored (s : State) (i : Nat) (bs : List Byte) :
    (s.setBytes i bs).rxStored = s.rxStored := rfl
@[simp] theorem State.setBytes_rxCalc (s : State) (i : Nat) (bs : List Byte) :
    (s.setBytes i bs).rxCalc = s.rxCalc := rfl
@[simp] theorem State.setBytes_expected (s : State) (i : Nat) (bs : List Byte) :
    (s.setBytes i bs).expected = s.expected := rfl
@[simp] theorem State.setBytes_fcount (s : State) (i : Nat) (bs : List Byte) :
    (s.setBytes i bs).fcount = s.fcount := rfl
@[simp] theorem State.setBytes_phase (s : State) (i : Nat) (bs : List Byte) : (s.setBytes i bs).phase = s.phase := rfl
@[simp] theorem State.setBytes_fbuf (s : State) (i : Nat) (bs : List Byte) :
    (s.setBytes i bs).fbuf = Memory.writeSeq s.draw s.fbuf i bs := rfl
@[simp] theorem State.setBytes_draw (s : State) (i : Nat) (bs : List Byte) : (s.setBytes i bs).draw = s.draw := rfl
@[simp] theorem State.setBytes_out (s : State) (i : Nat) (bs : List Byte) : (s.setBytes i bs).out = s.out := rfl
@[simp] theorem State.setBytes_host (s : State) (i : Nat) (bs : List Byte) : (s.setBytes i bs).host = s.host := rfl
@[simp] theorem State.setBytes_reads (s : State) (i : Nat) (bs : List Byte) : (s.setBytes i bs).reads = s.reads := rfl
@[simp] theorem State.setBytes_params (s : State) (i : Nat) (bs : List Byte) :
    (s.setBytes i bs).params = s.params := rfl
@[simp] theorem State.setBytes_resets (s : State) (i : Nat) (bs : List Byte) :
    (s.setBytes i bs).resets = s.resets := rfl

@[simp] theorem State.setCrc_mode (s : State) (c : Half) : (s.setCrc c).mode = s.mode := rfl
@[simp] theorem State.setCrc_result (s : State) (c : Half) : (s.setCrc c).result = s.result := rfl
@[simp] theorem State.setCrc_lenOver (s : State) (c : Half) : (s.setCrc c).lenOver = s.lenOver := rfl
@[simp] theorem State.setCrc_frameSize (s : State) (c : Half) : (s.setCrc c).frameSize = s.frameSize := rfl
@[simp] theorem State.setCrc_allowSkip (s : State) (c : Half) : (s.setCrc c).allowSkip = s.allowSkip := rfl
@[simp] theorem State.setCrc_seqMode (s : State) (c : Half) : (s.setCrc c).seqMode = s.seqMode := rfl
@[simp] theorem State.setCrc_crc (s : State) (c : Half) : (s.setCrc c).crc = c := rfl
@[simp] theorem State.setCrc_bptr (s : State) (c : Half) : (s.setCrc c).bptr = s.bptr := rfl
@[simp] theorem State.setCrc_bufData (s : State) (c : Half) : (s.setCrc c).bufData = s.bufData := rfl
@[simp] theorem State.setCrc_txIndex (s : State) (c : Half) : (s.setCrc c).txIndex = s.txIndex := rfl
@[simp] theorem State.setCrc_txLength (s : State) (c : Half) : (s.setCrc c).txLength = s.txLength := rfl
@[simp] theorem State.setCrc_txTotal (s : State) (c : Half) : (s.setCrc c).txTotal = s.txTotal := rfl
@[simp] theorem State.setCrc_txRemain (s : State) (c : Half) : (s.setCrc c).txRemain = s.txRemain := rfl
@[simp] theorem State.setCrc_rxIndex (s : State) (c : Half) : (s.setCrc c).rxIndex = s.rxIndex := rfl
@[simp] theorem State.setCrc_rxLength (s : State) (c : Half) : (s.setCrc c).rxLength = s.rxLength := rfl
@[simp] theorem State.setCrc_rxStored (s : State) (c : Half) : (s.setCrc c).rxStored = s.rxStored := rfl
@[simp] theorem State.setCrc_rxCalc (s : State) (c : Half) : (s.setCrc c).rxCalc = s.rxCalc := rfl
@[simp] theorem State.setCrc_expected (s : State) (c : Half) : (s.setCrc c).expected = s.expected := rfl
@[simp] theorem State.setCrc_fcount (s : State) (c : Half) : (s.setCrc c).fcount = s.fcount := rfl
@[simp] theorem State.setCrc_phase (s : State) (c : Half) : (s.setCrc c).phase = s.phase := rfl
@[simp] theorem State.setCrc_fbuf (s : State) (c : Half) : (s.setCrc c).fbuf = s.fbuf := rfl
@[simp] theorem State.setCrc_draw (s : State) (c : Half) : (s.setCrc c).draw = s.draw := rfl
@[simp] theorem State.setCrc_out (s : State) (c : Half) : (s.setCrc c).out = s.out := rfl
@[simp] theorem State.setCrc_host (s : State) (c : Half) : (s.setCrc c).host = s.host := rfl
@[simp] theorem State.setCrc_reads (s : State) (c : Half) : (s.setCrc c).reads = s.reads := rfl
@[simp] theorem State.setCrc_params (s : State) (c : Half) : (s.setCrc c).params = s.params := rfl
@[simp] theorem State.setCrc_resets (s : State) (c : Half) : (s.setCrc c).resets = s.resets := rfl

@[simp] theorem State.setMode_mode (s : State) (m : Mode) : (s.setMode m).mode = m := rfl
@[simp] theorem State.setMode_result (s : State) (m : Mode) : (s.setMode m).result = s.result := rfl
@[simp] theorem State.setMode_lenOver (s : State) (m : Mode) : (s.setMode m).lenOver = s.lenOver := rfl
@[simp] theorem State.setMode_frameSize (s : State) (m : Mode) : (s.setMode m).frameSize = s.frameSize := rfl
@[simp] theorem State.setMode_allowSkip (s : State) (m : Mode) : (s.setMode m).allowSkip = s.allowSkip := rfl
@[simp] theorem State.setMode_seqMode (s : State) (m : Mode) : (s.setMode m).seqMode = s.seqMode := rfl
@[simp] theorem State.setMode_crc (s : State) (m : Mode) : (s.setMode m).crc = s.crc := rfl
@[simp] theorem State.setMode_bptr (s : State) (m : Mode) : (s.setMode m).bptr = s.bptr := rfl
@[simp] theorem State.setMode_bufData (s : State) (m : Mode) : (s.setMode m).bufData = s.bufData := rfl
@[simp] theorem State.setMode_txIndex (s : State) (m : Mode) : (s.setMode m).txIndex = s.txIndex := rfl
@[simp] theorem State.setMode_txLength (s : State) (m : Mode) : (s.setMode m).txLength = s.txLength := rfl
@[simp] theorem State.setMode_txTotal (s : State) (m : Mode) : (s.setMode m).txTotal = s.txTotal := rfl
@[simp] theorem State.setMode_txRemain (s : State) (m : Mode) : (s.setMode m).txRemain = s.txRemain := rfl
@[simp] theorem State.setMode_rxIndex (s : State) (m : Mode) : (s.setMode m).rxIndex = s.rxIndex := rfl
@[simp] theorem State.setMode_rxLength (s : State) (m : Mode) : (s.setMode m).rxLength = s.rxLength := rfl
@[simp] theorem State.setMode_rxStored (s : State) (m : Mode) : (s.setMode m).rxStored = s.rxStored := rfl
@[simp] theorem State.setMode_rxCalc (s : State) (m : Mode) : (s.setMode m).rxCalc = s.rxCalc := rfl
@[simp] theorem State.setMode_expected (s : State) (m : Mode) : (s.setMode m).expected = s.expected := rfl
@[simp] theorem State.setMode_fcount (s : State) (m : Mode) : (s.setMode m).fcount = s.fcount := rfl
@[simp] theorem State.setMode_phase (s : State) (m : Mode) : (s.setMode m).phase = s.phase := rfl
@[simp] theorem State.setMode_fbuf (s : State) (m : Mode) : (s.setMode m).fbuf = s.fbuf := rfl
@[simp] theorem State.setMode_draw (s : State) (m : Mode) : (s.setMode m).draw = s.draw := rfl
@[simp] theorem State.setMode_out (s : State) (m : Mode) : (s.setMode m).out = s.out := rfl
@[simp] theorem State.setMode_host (s : State) (m : Mode) : (s.setMode m).host = s.host := rfl
@[simp] theorem State.setMode_reads (s : State) (m : Mode) : (s.setMode m).reads = s.reads := rfl
@[simp] theorem State.setMode_params (s : State) (m : Mode) : (s.setMode m).params = s.params := rfl
@[simp] theorem State.setMode_resets (s : State) (m : Mode) : (s.setMode m).resets = s.resets := rfl

@[simp] theorem State.emit_mode (s : State) (items : List Item) : (s.emit items).mode = s.mode := rfl
@[simp] theorem State.emit_result (s : State) (items : List Item) : (s.emit items).result = s.result := rfl
@[simp] theorem State.emit_lenOver (s : State) (items : List Item) : (s.emit items).lenOver = s.lenOver := rfl
@[simp] theorem State.emit_frameSize (s : State) (items : List Item) : (s.emit items).frameSize = s.frameSize := rfl
@[simp] theorem State.emit_allowSkip (s : State) (items : List Item) : (s.emit items).allowSkip = s.allowSkip := rfl
@[simp] theorem State.emit_seqMode (s : State) (items : List Item) : (s.emit items).seqMode = s.seqMode := rfl
@[simp] theorem State.emit_crc (s : State) (items : List Item) : (s.emit items).crc = s.crc := rfl
@[simp] theorem State.emit_bptr (s : State) (items : List Item) : (s.emit items).bptr = s.bptr := rfl
@[simp] theorem State.emit_bufData (s : State) (items : List Item) : (s.emit items).bufData = s.bufData := rfl
@[simp] theorem State.emit_txIndex (s : State) (items : List Item) : (s.emit items).txIndex = s.txIndex := rfl
@[simp] theorem State.emit_txLength (s : State) (items : List Item) : (s.emit items).txLength = s.txLength := rfl
@[simp] theorem State.emit_txTotal (s : State) (items : List Item) : (s.emit items).txTotal = s.txTotal := rfl
@[simp] theorem State.emit_txRemain (s : State) (items : List Item) : (s.emit items).txRemain = s.txRemain := rfl
@[simp] theorem State.emit_rxIndex (s : State) (items : List Item) : (s.emit items).rxIndex = s.rxIndex := rfl
@[simp] theorem State.emit_rxLength (s : State) (items : List Item) : (s.emit items).rxLength = s.rxLength := rfl
@[simp] theorem State.emit_rxStored (s : State) (items : List Item) : (s.emit items).rxStored = s.rxStored := rfl
@[simp] theorem State.emit_rxCalc (s : State) (items : List Item) : (s.emit items).rxCalc = s.rxCalc := rfl
@[simp] theorem State.emit_expected (s : State) (items : List Item) : (s.emit items).expected = s.expected := rfl
@[simp] theorem State.emit_fcount (s : State) (items : List Item) : (s.emit items).fcount = s.fcount := rfl
@[simp] theorem State.emit_phase (s : State) (items : List Item) : (s.emit items).phase = s.phase := rfl
@[simp] theorem State.emit_fbuf (s : State) (items : List Item) : (s.emit items).fbuf = s.fbuf := rfl
@[simp] theorem State.emit_draw (s : State) (items : List Item) : (s.emit items).draw = s.draw := rfl
@[simp] theorem State.emit_out (s : State) (items : List Item) : (s.emit items).out = s.out ++ items := rfl
@[simp] theorem State.emit_host (s : State) (items : List Item) : (s.emit items).host = s.host := rfl
@[simp] theorem State.emit_reads (s : State) (items : List Item) : (s.emit items).reads = s.reads := rfl
@[simp] theorem State.emit_params (s : State) (items : List Item) : (s.emit items).params = s.params := rfl
@[simp] theorem State.emit_resets (s : State) (items : List Item) : (s.emit items).resets = s.resets := rfl

@[simp] theorem State.issued_mode (s : State) (rest : List Txn) : (s.issued rest).mode = s.mode := rfl
@[simp] theorem State.issued_result (s : State) (rest : List Txn) : (s.issued rest).result = s.result := rfl
@[simp] theorem State.issued_lenOver (s : State) (rest : List Txn) : (s.issued rest).lenOver = s.lenOver := rfl
@[simp] theorem State.issued_frameSize (s : State) (rest : List Txn) : (s.issued rest).frameSize = s.frameSize := rfl
@[simp] theorem State.issued_allowSkip (s : State) (rest : List Txn) : (s.issued rest).allowSkip = s.allowSkip := rfl
@[simp] theorem State.issued_seqMode (s : State) (rest : List Txn) : (s.issued rest).seqMode = s.seqMode := rfl
@[simp] theorem State.issued_crc (s : State) (rest : List Txn) : (s.issued rest).crc = s.crc := rfl
@[simp] theorem State.issued_bptr (s : State) (rest : List Txn) : (s.issued rest).bptr = s.bptr := rfl
@[simp] theorem State.issued_bufData (s : State) (rest : List Txn) : (s.issued rest).bufData = s.bufData := rfl
@[simp] theorem State.issued_txIndex (s : State) (rest : List Txn) : (s.issued rest).txIndex = s.txIndex := rfl
@[simp] theorem State.issued_txLength (s : State) (rest : List Txn) : (s.issued rest).txLength = s.txLength := rfl
@[simp] theorem State.issued_txTotal (s : State) (rest : List Txn) : (s.issued rest).txTotal = s.txTotal := rfl
@[simp] theorem State.issued_txRemain (s : State) (rest : List Txn) : (s.issued rest).txRemain = s.txRemain := rfl
@[simp] theorem State.issued_rxIndex (s : State) (rest : List Txn) : (s.issued rest).rxIndex = s.rxIndex := rfl
@[simp] theorem State.issued_rxLength (s : State) (rest : List Txn) : (s.issued rest).rxLength = s.rxLength := rfl
@[simp] theorem State.issued_rxStored (s : State) (rest : List Txn) : (s.issued rest).rxStored = s.rxStored := rfl
@[simp] theorem State.issued_rxCalc (s : State) (rest : List Txn) : (s.issued rest).rxCalc = s.rxCalc := rfl
@[simp] theorem State.issued_expected (s : State) (rest : List Txn) : (s.issued rest).expected = s.expected := rfl
@[simp] theorem State.issued_fcount (s : State) (rest : List Txn) : (s.issued rest).fcount = s.fcount := rfl
@[simp] theorem State.issued_phase (s : State) (rest : List Txn) : (s.issued rest).phase = s.phase := rfl
@[simp] theorem State.issued_fbuf (s : State) (rest : List Txn) : (s.issued rest).fbuf = s.fbuf := rfl
@[simp] theorem State.issued_draw (s : State) (rest : List Txn) : (s.issued rest).draw = s.draw := rfl
@[simp] theorem State.issued_out (s : State) (rest : List Txn) : (s.issued rest).out = s.out := rfl
@[simp] theorem State.issued_host (s : State) (rest : List Txn) : (s.issued rest).host = rest := rfl
@[simp] theorem State.issued_reads (s : State) (rest : List Txn) : (s.issued rest).reads = s.reads := rfl
@[simp] theorem State.issued_params (s : State) (rest : List Txn) : (s.issued rest).params = s.params := rfl
@[simp] theorem State.issued_resets (s : State) (rest : List Txn) : (s.issued rest).resets = s.resets := rfl

@[simp] theorem State.withTransaction_mode (s : State) (t : Txn) : (s.withTransaction t).mode = s.mode := rfl
@[simp] theorem State.withTransaction_result (s : State) (t : Txn) : (s.withTransaction t).result = s.result := rfl
@[simp] theorem State.withTransaction_lenOver (s : State) (t : Txn) : (s.withTransaction t).lenOver = s.lenOver := rfl
@[simp] theorem State.withTransaction_frameSize (s : State) (t : Txn) :
    (s.withTransaction t).frameSize = s.frameSize := rfl
@[simp] theorem State.withTransaction_allowSkip (s : State) (t : Txn) :
    (s.withTransaction t).allowSkip = s.allowSkip := rfl
@[simp] theorem State.withTransaction_seqMode (s : State) (t : Txn) : (s.withTransaction t).seqMode = s.seqMode := rfl
@[simp] theorem State.withTransaction_crc (s : State) (t : Txn) : (s.withTransaction t).crc = s.crc := rfl
@[simp] theorem State.withTransaction_bptr (s : State) (t : Txn) : (s.withTransaction t).bptr = s.bptr := rfl
@[simp] theorem State.withTransaction_bufData (s : State) (t : Txn) : (s.withTransaction t).bufData = s.bufData := rfl
@[simp] theorem State.withTransaction_txIndex (s : State) (t : Txn) : (s.withTransaction t).txIndex = s.txIndex := rfl
@[simp] theorem State.withTransaction_txLength (s : State) (t : Txn) :
    (s.withTransaction t).txLength = s.txLength := rfl
@[simp] theorem State.withTransaction_txTotal (s : State) (t : Txn) : (s.withTransaction t).txTotal = s.txTotal := rfl
@[simp] theorem State.withTransaction_txRemain (s : State) (t : Txn) :
    (s.withTransaction t).txRemain = s.txRemain := rfl
@[simp] theorem State.withTransaction_rxIndex (s : State) (t : Txn) : (s.withTransaction t).rxIndex = s.rxIndex := rfl
@[simp] theorem State.withTransaction_rxLength (s : State) (t : Txn) :
    (s.withTransaction t).rxLength = s.rxLength := rfl
@[simp] theorem State.withTransaction_rxStored (s : State) (t : Txn) :
    (s.withTransaction t).rxStored = s.rxStored := rfl
@[simp] theorem State.withTransaction_rxCalc (s : State) (t : Txn) : (s.withTransaction t).rxCalc = s.rxCalc := rfl
@[simp] theorem State.withTransaction_expected (s : State) (t : Txn) :
    (s.withTransaction t).expected = s.expected := rfl
@[simp] theorem State.withTransaction_fcount (s : State) (t : Txn) : (s.withTransaction t).fcount = s.fcount := rfl
@[simp] theorem State.withTransaction_phase (s : State) (t : Txn) : (s.withTransaction t).phase = s.phase := rfl
@[simp] theorem State.withTransaction_fbuf (s : State) (t : Txn) : (s.withTransaction t).fbuf = s.fbuf := rfl
@[simp] theorem State.withTransaction_draw (s : State) (t : Txn) : (s.withTransaction t).draw = s.draw := rfl
@[simp] theorem State.withTransaction_out (s : State) (t : Txn) : (s.withTransaction t).out = s.out := rfl
@[simp] theorem State.withTransaction_host (s : State) (t : Txn) : (s.withTransaction t).host = t :: s.host := rfl
@[simp] theorem State.withTransaction_reads (s : State) (t : Txn) : (s.withTransaction t).reads = s.reads := rfl
@[simp] theorem State.withTransaction_params (s : State) (t : Txn) : (s.withTransaction t).params = s.params := rfl
@[simp] theorem State.withTransaction_resets (s : State) (t : Txn) : (s.withTransaction t).resets = s.resets := rfl

@[simp] theorem State.readTransaction_mode (s : State) (off : Byte) : (s.readTransaction off).mode = s.mode := rfl
@[simp] theorem State.readTransaction_result (s : State) (off : Byte) :
    (s.readTransaction off).result = s.result := rfl
@[simp] theorem State.readTransaction_lenOver (s : State) (off : Byte) :
    (s.readTransaction off).lenOver = s.lenOver := rfl
@[simp] theorem State.readTransaction_frameSize (s : State) (off : Byte) :
    (s.readTransaction off).frameSize = s.frameSize := rfl
@[simp] theorem State.readTransaction_allowSkip (s : State) (off : Byte) :
    (s.readTransaction off).allowSkip = s.allowSkip := rfl
@[simp] theorem State.readTransaction_seqMode (s : State) (off : Byte) :
    (s.readTransaction off).seqMode = s.seqMode := rfl
@[simp] theorem State.readTransaction_crc (s : State) (off : Byte) : (s.readTransaction off).crc = s.crc := rfl
@[simp] theorem State.readTransaction_bptr (s : State) (off : Byte) : (s.readTransaction off).bptr = s.bptr := rfl
@[simp] theorem State.readTransaction_bufData (s : State) (off : Byte) :
    (s.readTransaction off).bufData = s.bufData := rfl
@[simp] theorem State.readTransaction_txIndex (s : State) (off : Byte) :
    (s.readTransaction off).txIndex = s.txIndex := rfl
@[simp] theorem State.readTransaction_txLength (s : State) (off : Byte) :
    (s.readTransaction off).txLength = s.txLength := rfl
@[simp] theorem State.readTransaction_txTotal (s : State) (off : Byte) :
    (s.readTransaction off).txTotal = s.txTotal := rfl
@[simp] theorem State.readTransaction_txRemain (s : State) (off : Byte) :
    (s.readTransaction off).txRemain = s.txRemain := rfl
@[simp] theorem State.readTransaction_rxIndex (s : State) (off : Byte) :
    (s.readTransaction off).rxIndex = s.rxIndex := rfl
@[simp] theorem State.readTransaction_rxLength (s : State) (off : Byte) :
    (s.readTransaction off).rxLength = s.rxLength := rfl
@[simp] theorem State.readTransaction_rxStored (s : State) (off : Byte) :
    (s.readTransaction off).rxStored = s.rxStored := rfl
@[simp] theorem State.readTransaction_rxCalc (s : State) (off : Byte) :
    (s.readTransaction off).rxCalc = s.rxCalc := rfl
@[simp] theorem State.readTransaction_expected (s : State) (off : Byte) :
    (s.readTransaction off).expected = s.expected := rfl
@[simp] theorem State.readTransaction_fcount (s : State) (off : Byte) :
    (s.readTransaction off).fcount = s.fcount := rfl
@[simp] theorem State.readTransaction_phase (s : State) (off : Byte) : (s.readTransaction off).phase = s.phase := rfl
@[simp] theorem State.readTransaction_fbuf (s : State) (off : Byte) : (s.readTransaction off).fbuf = s.fbuf := rfl
@[simp] theorem State.readTransaction_draw (s : State) (off : Byte) : (s.readTransaction off).draw = s.draw := rfl
@[simp] theorem State.readTransaction_out (s : State) (off : Byte) : (s.readTransaction off).out = s.out := rfl
@[simp] theorem State.readTransaction_host (s : State) (off : Byte) : (s.readTransaction off).host = s.host := rfl
@[simp] theorem State.readTransaction_reads (s : State) (off : Byte) :
    (s.readTransaction off).reads = s.reads ++ [s.readReg off] := rfl
@[simp] theorem State.readTransaction_params (s : State) (off : Byte) :
    (s.readTransaction off).params = s.params := rfl
@[simp] theorem State.readTransaction_resets (s : State) (off : Byte) :
    (s.readTransaction off).resets = s.resets := rfl

@[simp] theorem State.platformReset_mode (s : State) : (s.platformReset).mode = .idle := rfl
@[simp] theorem State.platformReset_result (s : State) : (s.platformReset).result = .ok := rfl
@[simp] theorem State.platformReset_lenOver (s : State) : (s.platformReset).lenOver = false := rfl
@[simp] theorem State.platformReset_frameSize (s : State) : (s.platformReset).frameSize = 1024 := rfl
@[simp] theorem State.platformReset_allowSkip (s : State) : (s.platformReset).allowSkip = false := rfl
@[simp] theorem State.platformReset_seqMode (s : State) : (s.platformReset).seqMode = .pin := rfl
@[simp] theorem State.platformReset_crc (s : State) : (s.platformReset).crc = 0xFFFF := rfl
@[simp] theorem State.platformReset_bptr (s : State) : (s.platformReset).bptr = 0 := rfl
@[simp] theorem State.platformReset_bufData (s : State) : (s.platformReset).bufData = 0 := rfl
@[simp] theorem State.platformReset_txIndex (s : State) : (s.platformReset).txIndex = 0 := rfl
@[simp] theorem State.platformReset_txLength (s : State) : (s.platformReset).txLength = 0 := rfl
@[simp] theorem State.platformReset_txTotal (s : State) : (s.platformReset).txTotal = 0 := rfl
@[simp] theorem State.platformReset_txRemain (s : State) : (s.platformReset).txRemain = 0 := rfl
@[simp] theorem State.platformReset_rxIndex (s : State) : (s.platformReset).rxIndex = 0 := rfl
@[simp] theorem State.platformReset_rxLength (s : State) : (s.platformReset).rxLength = 0 := rfl
@[simp] theorem State.platformReset_rxStored (s : State) : (s.platformReset).rxStored = 0 := rfl
@[simp] theorem State.platformReset_rxCalc (s : State) : (s.platformReset).rxCalc = 0 := rfl
@[simp] theorem State.platformReset_expected (s : State) : (s.platformReset).expected = 0 := rfl
@[simp] theorem State.platformReset_fcount (s : State) : (s.platformReset).fcount = 0 := rfl
@[simp] theorem State.platformReset_phase (s : State) : (s.platformReset).phase = .frame := rfl
@[simp] theorem State.platformReset_fbuf (s : State) : (s.platformReset).fbuf = [] := rfl
@[simp] theorem State.platformReset_draw (s : State) :
    (s.platformReset).draw = resetDraw (s.resets + 1) s.params.fbufSize := rfl
@[simp] theorem State.platformReset_out (s : State) : (s.platformReset).out = s.out := rfl
@[simp] theorem State.platformReset_host (s : State) : (s.platformReset).host = s.host := rfl
@[simp] theorem State.platformReset_reads (s : State) : (s.platformReset).reads = s.reads := rfl
@[simp] theorem State.platformReset_params (s : State) : (s.platformReset).params = s.params := rfl
@[simp] theorem State.platformReset_resets (s : State) : (s.platformReset).resets = s.resets + 1 := rfl

/-- What a byte reads as depends on the draws and the cells only. -/
theorem State.byteAt_congr {s t : State} (hd : t.draw = s.draw) (hf : t.fbuf = s.fbuf) (i : Nat) :
    t.byteAt i = s.byteAt i := by unfold State.byteAt; rw [hd, hf]

theorem State.bytesFrom_congr {s t : State} (hd : t.draw = s.draw) (hf : t.fbuf = s.fbuf) (a n : Nat) :
    t.bytesFrom a n = s.bytesFrom a n := by unfold State.bytesFrom; simp only [State.byteAt_congr hd hf]

theorem State.capacity_congr {s t : State} (h : t.frameSize = s.frameSize) : t.capacity = s.capacity := by
  unfold State.capacity; rw [h]

theorem State.configValid_congr {s t : State} (h : t.frameSize = s.frameSize) (hp : t.params = s.params) :
    t.configValid = s.configValid := by unfold State.configValid; rw [h, hp]

theorem State.framesNeeded_congr {s t : State} (h : t.frameSize = s.frameSize) (ht : t.txTotal = s.txTotal) :
    t.framesNeeded = s.framesNeeded := by unfold State.framesNeeded; rw [State.capacity_congr h, ht]

end Sys2Proof.Machine
end

