-- ==== Sys2Proof/Laws/Memory.lean ====
section
/-! SUPPORT. The frame buffer's laws: what a read gives after a write, that every operation keeps the canonical
form, and the same for byte sequences and ranges (00_scope.md R11). -/

namespace Sys2Proof.Machine

namespace MemoryLaws

theorem find_put (m : List Host.Cell) (i : Nat) (b : Byte) (j : Nat) :
    Memory.find? (Memory.put m i b) j = if j = i then some b else Memory.find? m j := by
  induction m with
  | nil => simp only [Memory.put, Memory.find?, eq_comm]
  | cons c m ih =>
    simp only [Memory.put]
    split_ifs with h1 h2 h3 <;> simp only [Memory.find?, ih] <;> split_ifs <;> first | rfl | omega

theorem find_erase (m : List Host.Cell) (i j : Nat) :
    Memory.find? (Memory.erase m i) j = if j = i then none else Memory.find? m j := by
  induction m with
  | nil => simp [Memory.erase, Memory.find?]
  | cons c m ih =>
    unfold Memory.erase at ih ⊢
    by_cases h : c.1 = i
    · simp only [List.filter_cons, h, bne_self_eq_false, Bool.false_eq_true, if_false, ih, Memory.find?]
      split_ifs <;> first | rfl | omega
    · simp only [List.filter_cons, bne_iff_ne, ne_eq, h, not_false_eq_true, if_true, Memory.find?, ih]
      split_ifs <;> first | rfl | omega

/-- Reading after writing: the byte written at its index, and what was there everywhere else. -/
theorem read_write (draw : List Byte) (m : List Host.Cell) (i : Nat) (b : Byte) (j : Nat) :
    Memory.read draw (Memory.write draw m i b) j = if j = i then b else Memory.read draw m j := by
  unfold Memory.read Memory.write
  split_ifs with hb hj hj
  · subst hj; simp [find_erase, hb]
  · simp [find_erase, hj]
  · simp [find_put, hj]
  · simp [find_put, hj]

theorem mem_put {m : List Host.Cell} {i : Nat} {b : Byte} {c : Host.Cell} (h : c ∈ Memory.put m i b) :
    c = (i, b) ∨ c ∈ m := by
  induction m with
  | nil => simpa [Memory.put] using h
  | cons d m ih =>
    simp only [Memory.put] at h
    split_ifs at h with h1 h2
    · rcases List.mem_cons.mp h with h | h
      · exact .inr (by simp [h])
      · exact (ih h).imp id (List.mem_cons_of_mem _)
    · rcases List.mem_cons.mp h with h | h
      · exact .inl h
      · exact .inr (List.mem_cons_of_mem _ h)
    · exact List.mem_cons.mp h

theorem put_rising {m : List Host.Cell} (h : m.Pairwise (fun c d => c.1 < d.1)) (i : Nat) (b : Byte) :
    (Memory.put m i b).Pairwise (fun c d => c.1 < d.1) := by
  induction m with
  | nil => simp [Memory.put]
  | cons c m ih =>
    obtain ⟨hc, hm⟩ := List.pairwise_cons.mp h
    simp only [Memory.put]
    split_ifs with h1 h2
    · refine List.pairwise_cons.mpr ⟨fun d hd => ?_, ih hm⟩
      rcases mem_put hd with rfl | hd
      · exact h1
      · exact hc d hd
    · exact List.pairwise_cons.mpr ⟨fun d hd => h2 ▸ hc d hd, hm⟩
    · refine List.pairwise_cons.mpr ⟨fun d hd => ?_, h⟩
      rcases List.mem_cons.mp hd with rfl | hd
      · show i < d.1; omega
      · have := hc d hd; show i < d.1; omega

/-- A write keeps the canonical form. -/
theorem write_wf {draw : List Byte} {m : List Host.Cell} (h : Memory.wf draw m) (i : Nat) (b : Byte) :
    Memory.wf draw (Memory.write draw m i b) := by
  unfold Memory.write
  split_ifs with hb
  · exact ⟨h.1.filter _, fun c hc => h.2 c (List.mem_filter.mp hc).1⟩
  · refine ⟨put_rising h.1 i b, fun c hc => ?_⟩
    rcases mem_put hc with rfl | hc
    · exact hb
    · exact h.2 c hc

/-- A write lists no index but its own. -/
theorem write_index {draw : List Byte} {m : List Host.Cell} {i : Nat} {b : Byte} {c : Host.Cell}
    (h : c ∈ Memory.write draw m i b) : c.1 = i ∨ c ∈ m := by
  unfold Memory.write at h
  split_ifs at h
  · exact .inr (List.mem_filter.mp h).1
  · exact (mem_put h).imp (fun h => by rw [h]) id

/-- The empty list of cells, reset's, is in canonical form. -/
theorem nil_wf (draw : List Byte) : Memory.wf draw [] := ⟨List.Pairwise.nil, by simp⟩

/-- Reading after writing a sequence: the sequence's byte inside it, and what was there outside. -/
theorem read_writeSeq (draw : List Byte) (bs : List Byte) (m : List Host.Cell) (i j : Nat) :
    Memory.read draw (Memory.writeSeq draw m i bs) j =
      if i ≤ j ∧ j < i + bs.length then bs.getD (j - i) 0 else Memory.read draw m j := by
  induction bs generalizing m i with
  | nil => simp only [Memory.writeSeq, List.length_nil]; rw [if_neg (by omega)]
  | cons b bs ih =>
    rw [Memory.writeSeq, ih, read_write]
    simp only [List.length_cons]
    by_cases h : i = j
    · subst h
      rw [if_neg (by omega), if_pos rfl, if_pos (by omega)]; simp
    · by_cases h2 : i + 1 ≤ j ∧ j < i + 1 + bs.length
      · rw [if_pos h2, if_pos (by omega)]
        obtain ⟨k, rfl⟩ : ∃ k, j = i + 1 + k := ⟨j - (i + 1), by omega⟩
        have e1 : i + 1 + k - (i + 1) = k := by omega
        have e2 : i + 1 + k - i = k + 1 := by omega
        rw [e1, e2]; simp
      · rw [if_neg h2, if_neg (by omega), if_neg (by omega)]

theorem writeSeq_wf {draw : List Byte} (bs : List Byte) {m : List Host.Cell} (h : Memory.wf draw m) (i : Nat) :
    Memory.wf draw (Memory.writeSeq draw m i bs) := by
  induction bs generalizing m i with
  | nil => exact h
  | cons b bs ih => exact ih (write_wf h i b) (i + 1)

theorem writeSeq_index {draw : List Byte} (bs : List Byte) {m : List Host.Cell} {i : Nat} {c : Host.Cell}
    (h : c ∈ Memory.writeSeq draw m i bs) : (i ≤ c.1 ∧ c.1 < i + bs.length) ∨ c ∈ m := by
  induction bs generalizing m i with
  | nil => exact .inr h
  | cons b bs ih =>
    rcases ih h with h | h
    · left; simp only [List.length_cons]; omega
    · rcases write_index h with h | h
      · left; simp only [List.length_cons]; omega
      · exact .inr h

theorem find_of_mem {m : List Host.Cell} (h : m.Pairwise (fun c d => c.1 < d.1)) {c : Host.Cell} (hc : c ∈ m) :
    Memory.find? m c.1 = some c.2 := by
  induction m with
  | nil => simp at hc
  | cons d m ih =>
    obtain ⟨hd, hm⟩ := List.pairwise_cons.mp h
    rcases List.mem_cons.mp hc with rfl | hc
    · simp [Memory.find?]
    · have : d.1 ≠ c.1 := by have := hd c hc; omega
      simp [Memory.find?, this, ih hm hc]

end MemoryLaws

/-- Reading after `FBUF[i] <- b`. -/
theorem State.byteAt_setByte (s : State) (i : Nat) (b : Byte) (j : Nat) :
    (s.setByte i b).byteAt j = if j = i then b else s.byteAt j :=
  MemoryLaws.read_write s.draw s.fbuf i b j

/-- Reading after a sequence is written. -/
theorem State.byteAt_setBytes (s : State) (i : Nat) (bs : List Byte) (j : Nat) :
    (s.setBytes i bs).byteAt j = if i ≤ j ∧ j < i + bs.length then bs.getD (j - i) 0 else s.byteAt j :=
  MemoryLaws.read_writeSeq s.draw bs s.fbuf i j

/-- `FBUF[i] <- b` keeps the canonical form. -/
theorem State.setByte_wf {s : State} (h : Memory.wf s.draw s.fbuf) (i : Nat) (b : Byte) :
    Memory.wf (s.setByte i b).draw (s.setByte i b).fbuf := MemoryLaws.write_wf h i b

/-- Writing a sequence keeps the canonical form. -/
theorem State.setBytes_wf {s : State} (h : Memory.wf s.draw s.fbuf) (i : Nat) (bs : List Byte) :
    Memory.wf (s.setBytes i bs).draw (s.setBytes i bs).fbuf := MemoryLaws.writeSeq_wf bs h i

@[simp] theorem State.length_bytesFrom (s : State) (a n : Nat) : (s.bytesFrom a n).length = n := by
  simp [State.bytesFrom]

@[simp] theorem State.getElem_bytesFrom (s : State) (a n k : Nat) (h : k < (s.bytesFrom a n).length) :
    (s.bytesFrom a n)[k] = s.byteAt (a + k) := by simp [State.bytesFrom]

theorem State.getD_bytesFrom (s : State) (a n k : Nat) (h : k < n) :
    (s.bytesFrom a n).getD k 0 = s.byteAt (a + k) := by
  rw [List.getD_eq_getElem _ _ (by simpa using h)]; simp

/-- Two ranges are equal when they agree byte by byte. -/
theorem State.bytesFrom_ext {s t : State} {a b n : Nat} (h : ∀ k < n, s.byteAt (a + k) = t.byteAt (b + k)) :
    s.bytesFrom a n = t.bytesFrom b n := by
  apply List.ext_getElem <;> simp
  exact h

/-- A range in two parts. -/
theorem State.bytesFrom_add (s : State) (a n k : Nat) :
    s.bytesFrom a (n + k) = s.bytesFrom a n ++ s.bytesFrom (a + n) k := by
  unfold State.bytesFrom
  rw [List.range_add, List.map_append, List.map_map]
  congr 1
  apply List.map_congr_left
  intro x _
  simp [Nat.add_assoc]

theorem State.take_bytesFrom (s : State) (a n k : Nat) (h : k ≤ n) :
    (s.bytesFrom a n).take k = s.bytesFrom a k := by
  obtain ⟨d, rfl⟩ := Nat.exists_eq_add_of_le h
  rw [State.bytesFrom_add, List.take_left' (by simp)]

theorem State.drop_bytesFrom (s : State) (a n k : Nat) (h : k ≤ n) :
    (s.bytesFrom a n).drop k = s.bytesFrom (a + k) (n - k) := by
  obtain ⟨d, rfl⟩ := Nat.exists_eq_add_of_le h
  rw [State.bytesFrom_add, List.drop_left' (by simp), Nat.add_sub_cancel_left]

/-- The sequence just written is what its range reads as. -/
theorem State.bytesFrom_setBytes_self (s : State) (i : Nat) (bs : List Byte) :
    (s.setBytes i bs).bytesFrom i bs.length = bs := by
  apply List.ext_getElem
  · simp
  · intro k h1 h2
    rw [State.getElem_bytesFrom, State.byteAt_setBytes, if_pos (by omega), Nat.add_sub_cancel_left,
      List.getD_eq_getElem _ _ h2]

/-- A reset draws one byte for each index of FBUF (R113). -/
@[simp] theorem length_resetDraw (epoch size : Nat) : (resetDraw epoch size).length = size := by
  simp only [resetDraw, List.length_map, List.length_range]

/-- What an index reads as when nothing has changed it since a reset: that reset's draw (R32). -/
theorem fresh_resetDraw (epoch : Nat) {size i : Nat} (h : i < size) :
    Memory.fresh (resetDraw epoch size) i = Config.fbufDraw epoch i := by
  unfold Memory.fresh resetDraw
  rw [List.getD_eq_getElem _ _ (by simpa only [List.length_map, List.length_range] using h), List.getElem_map,
    List.getElem_range]

/-- Reset's buffer is in canonical form. -/
theorem reset_memory_wf : Memory.wf State.reset.draw State.reset.fbuf := MemoryLaws.nil_wf _

end Sys2Proof.Machine
end

