-- ==== Sys2Proof/Laws/Ops.lean ====
section
/-! SUPPORT. What a guarded command can do (60_exceptions.md R98, R99). -/

namespace Sys2Proof.Machine

/-- A guarded command runs its own rule where the mode accepts it, and otherwise does nothing but report the
table's error. -/
theorem State.accepted_cases (s : State) (a : Access) (run : State → State) :
    (a.error? s.mode = none ∧ s.accepted a run = run s) ∨
      ∃ r, a.error? s.mode = some r ∧ s.accepted a run = s.setResult r := by
  unfold State.accepted
  cases h : a.error? s.mode with
  | none => exact .inl ⟨rfl, rfl⟩
  | some r => exact .inr ⟨r, rfl, rfl⟩

theorem State.accepted_of_none {s : State} {a : Access} (run : State → State) (h : a.error? s.mode = none) :
    s.accepted a run = run s := by unfold State.accepted; rw [h]

theorem State.accepted_of_some {s : State} {a : Access} {r : Result} (run : State → State)
    (h : a.error? s.mode = some r) : s.accepted a run = s.setResult r := by unfold State.accepted; rw [h]; rfl

@[simp] theorem error?_always (m : Mode) : Access.always.error? m = none := rfl

theorem error?_idleOnly (m : Mode) : Access.idleOnly.error? m = if m = .idle then none else some .errBusy := by
  cases m <;> rfl

theorem error?_txOnly (m : Mode) :
    Access.txOnly.error? m = if m = .tx then none else if m = .idle then some .errState else some .errBusy := by
  cases m <;> rfl

theorem error?_rxOnly (m : Mode) :
    Access.rxOnly.error? m = if m = .rx then none else if m = .idle then some .errState else some .errBusy := by
  cases m <;> rfl

/-- The mode's error is never OK and never the outcome CRC_MISMATCH. -/
theorem error?_isError {a : Access} {m : Mode} {r : Result} (h : a.error? m = some r) : r.isError = true := by
  revert h; cases a <;> cases m <;> simp [Access.error?] <;> rintro rfl <;> rfl

theorem frameSizeValid_iff (p : Config.Params) (fs : Half) :
    frameSizeValid p fs = true ↔ 7 ≤ fs.toNat ∧ fs.toNat ≤ p.fbufSize := by
  rw [frameSizeValid, Bool.and_eq_true, decide_eq_true_iff, decide_eq_true_iff]; rfl

theorem State.configValid_iff (s : State) :
    s.configValid = true ↔ 7 ≤ s.frameSize.toNat ∧ s.frameSize.toNat ≤ s.params.fbufSize :=
  frameSizeValid_iff s.params s.frameSize

theorem State.capacity_eq (s : State) : s.capacity = s.frameSize.toNat - 6 := rfl

theorem State.encodeSessionInRange_iff (s : State) :
    s.encodeSessionInRange = true ↔
      s.configValid = true ∧ s.fcount.toNat < s.capacity ∧ 0 < s.txRemain.toNat := by
  simp [State.encodeSessionInRange, and_assoc]

theorem State.decodeSessionInRange_iff (s : State) :
    s.decodeSessionInRange = true ↔
      s.phase = .separator ∨ (s.configValid = true ∧ s.fcount.toNat < s.frameSize.toNat) := by
  simp [State.decodeSessionInRange]

end Sys2Proof.Machine
end

