-- ==== Sys2Proof/Laws/Words.lean ====
section
/-! SUPPORT. Bytes of a half word (00_scope.md R11, 20_memory.md R39), and the fields of an assembled command
word (30_encoding.md R49, R56). -/

namespace Sys2Proof.Machine

/-- LE16 undoes the split into bytes. -/
@[simp] theorem le16_loByte_hiByte (v : Half) : le16 (loByte v) (hiByte v) = v := by
  ext i hi
  simp only [le16, loByte, hiByte, BitVec.getElem_or, BitVec.getElem_setWidth, BitVec.getElem_shiftLeft,
    BitVec.getLsbD_extractLsb']
  by_cases h : i < 8
  · simp [h, BitVec.getLsbD_eq_getElem hi]
  · have h1 : i - 8 < 8 := by omega
    have h2 : 8 + (i - 8) = i := by omega
    simp [h, h1, h2, BitVec.getLsbD_eq_getElem hi]

@[simp] theorem loByte_le16 (x y : Byte) : loByte (le16 x y) = x := by
  ext i hi
  have h : i < 16 := by omega
  simp [le16, loByte, hi, h, BitVec.getLsbD_eq_getElem]

@[simp] theorem hiByte_le16 (x y : Byte) : hiByte (le16 x y) = y := by
  ext i hi
  have h : 8 + i < 16 := by omega
  have h2 : 8 + i - 8 = i := by omega
  simp [le16, hiByte, h, h2, hi, BitVec.getLsbD_eq_getElem]

end Sys2Proof.Machine

namespace Sys2Proof

@[simp] theorem wordOp_assembleWord (op b : Byte) (h : Half) : wordOp (assembleWord op b h) = op := by
  ext i hi
  have h1 : i < 32 := by omega
  have h2 : i < 16 := by omega
  simp [wordOp, assembleWord, hi, h1, h2, BitVec.getLsbD_eq_getElem]

@[simp] theorem wordB_assembleWord (op b : Byte) (h : Half) : wordB (assembleWord op b h) = b := by
  ext i hi
  have h1 : 8 + i < 32 := by omega
  have h2 : 8 + i < 16 := by omega
  have h4 : 8 + i - 8 = i := by omega
  simp [wordB, assembleWord, hi, h1, h2, h4, BitVec.getLsbD_eq_getElem]

@[simp] theorem wordH_assembleWord (op b : Byte) (h : Half) : wordH (assembleWord op b h) = h := by
  ext i hi
  have h1 : 16 + i < 32 := by omega
  have h4 : 16 + i - 16 = i := by omega
  have h5 : op.getLsbD (16 + i) = false := BitVec.getLsbD_of_ge _ _ (by omega)
  have h6 : b.getLsbD (16 + i - 8) = false := BitVec.getLsbD_of_ge _ _ (by omega)
  simp [wordH, assembleWord, hi, h1, h4, h5, h6, BitVec.getLsbD_eq_getElem]

/-- Every opcode is found by its own OP value. -/
theorem ofCode?_code (op : Op) : Op.ofCode? op.code = some op := by cases op <;> decide

/-- An opcode found by an OP value has that OP value. -/
theorem code_of_ofCode? {c : Byte} {op : Op} (h : Op.ofCode? c = some op) : op.code = c := by
  simpa using List.find?_some h

/-- A word is assembled from its three fields (R49, R56). -/
theorem assembleWord_fields (w : Word) : assembleWord (wordOp w) (wordB w) (wordH w) = w := by
  ext i hi
  simp only [assembleWord, wordOp, wordB, wordH, BitVec.getElem_or, BitVec.getElem_setWidth,
    BitVec.getElem_shiftLeft, BitVec.getLsbD_extractLsb']
  rcases (by omega : i < 8 ∨ (8 ≤ i ∧ i < 16) ∨ (16 ≤ i ∧ i < 32)) with h1 | ⟨h1, h2⟩ | ⟨h1, h2⟩
  all_goals interval_cases i <;> simp

/-- An assembled word, as a number (R56). -/
theorem toNat_assembleWord (op b : Byte) (h : Half) :
    (assembleWord op b h).toNat = op.toNat + 256 * b.toNat + 65536 * h.toNat := by
  have h1 := op.isLt
  have h2 := b.isLt
  have h3 := h.isLt
  simp only [assembleWord, BitVec.toNat_or, BitVec.toNat_setWidth, BitVec.toNat_shiftLeft, Nat.shiftLeft_eq]
  rw [Nat.mod_eq_of_lt (by omega), Nat.mod_eq_of_lt (by omega), Nat.mod_eq_of_lt (a := b.toNat) (by omega),
    Nat.mod_eq_of_lt (by omega), Nat.mod_eq_of_lt (a := h.toNat) (by omega), Nat.or_comm op.toNat,
    show b.toNat * 2 ^ 8 = 2 ^ 8 * b.toNat by ring, ← Nat.two_pow_add_eq_or_of_lt (by omega), Nat.or_comm,
    show h.toNat * 2 ^ 16 = 2 ^ 16 * h.toNat by ring, ← Nat.two_pow_add_eq_or_of_lt (by omega)]
  omega

/-- What a decoded word was: a listed opcode, under whose mask the word is the opcode alone (R53). -/
theorem decode_ok_cases {w : Word} {i : Instr} (h : decode w = .ok i) :
    ∃ op : Op, op.code = wordOp w ∧ w &&& op.format.mask = op.code.setWidth 32 ∧
      i = op.instr (wordB w) (wordH w) := by
  unfold decode at h
  cases ho : Op.ofCode? (wordOp w) with
  | none => rw [ho] at h; simp at h
  | some op =>
    rw [ho] at h
    simp only at h
    split_ifs at h with hm
    exact ⟨op, code_of_ofCode? ho, hm, by cases h; rfl⟩

/-- A word that is its opcode alone under the opcode's mask decodes to the opcode's command (R53). -/
theorem decode_of_mask {w : Word} {op : Op} (h1 : op.code = wordOp w)
    (h2 : w &&& op.format.mask = op.code.setWidth 32) : decode w = .ok (op.instr (wordB w) (wordH w)) := by
  unfold decode
  rw [← h1, ofCode?_code]
  simp only
  rw [if_pos h2]

/-- Masking a word with 0xFF leaves its OP field (R49). -/
theorem and_ff_iff {w : Word} {c : Byte} : w &&& 0xFF = c.setWidth 32 ↔ wordOp w = c := by
  constructor
  · intro h
    ext i hi
    have := congrArg (fun x => x.getLsbD i) h
    have h3 : (255 : Word).getLsbD i = true := by interval_cases i <;> rfl
    have h4 : i < 32 := by omega
    simp only [BitVec.getLsbD_and, h3, Bool.and_true, BitVec.getLsbD_setWidth, h4, decide_true, Bool.true_and] at this
    rw [← BitVec.getLsbD_eq_getElem hi, ← BitVec.getLsbD_eq_getElem hi, ← this]
    simp [wordOp, hi]
  · rintro rfl
    ext i hi
    have : (255#32).getLsbD i = decide (i < 8) := by interval_cases i <;> rfl
    have h2 : (255#32)[i] = decide (i < 8) := by rw [← this]; simp [hi]
    by_cases h : i < 8 <;> simp [wordOp, h2, h, BitVec.getLsbD_eq_getElem hi]

end Sys2Proof
end

