-- ==== Sys2Proof/Laws/Codec.lean ====
section
/-! SUPPORT. What EncodeFrame and CheckFrame do, once (42_codec.md R74, R75), in terms of the pure Encode and
Decode (R71, R72). -/

namespace Sys2Proof.Machine

@[simp] theorem length_le16Bytes (v : Half) : (le16Bytes v).length = 2 := rfl
@[simp] theorem length_frameHeader (index len : Half) : (frameHeader index len).length = 4 := rfl

@[simp] theorem length_frameBody (index len : Half) (cap : Nat) (pl : List Byte) (h : pl.length ≤ cap) :
    (frameBody index len cap pl).length = cap + 4 := by
  simp only [frameBody, List.length_append, length_frameHeader, List.length_replicate]; omega

/-- A frame has P + 6 bytes. -/
@[simp] theorem length_frameEncode (p : Config.Params) (index len : Half) (cap : Nat) (pl : List Byte)
    (h : pl.length ≤ cap) : (frameEncode p index len cap pl).length = cap + 6 := by
  simp [frameEncode, h]

/-- The state after the header and the padding of EncodeFrame are written, before the checksum. -/
def encodePadded (idx len : Half) (s : State) : State :=
  (s.setBytes 0 (frameHeader idx len)).setBytes (4 + len.toNat) (List.replicate (s.capacity - len.toNat) 0)

theorem encodeFrame_eq (idx len : Half) (s : State) :
    encodeFrame idx len s =
      ((encodePadded idx len s).setBytes (s.capacity + 4)
          (le16Bytes (crcCompute s.params ((encodePadded idx len s).bytesFrom 0 (s.capacity + 4))))).setCrc
        (crcCompute s.params ((encodePadded idx len s).bytesFrom 0 (s.capacity + 4))) := rfl

@[simp] theorem State.byteAt_setCrc (s : State) (c : Half) (i : Nat) : (s.setCrc c).byteAt i = s.byteAt i := rfl

@[simp] theorem State.bytesFrom_setCrc (s : State) (c : Half) (a n : Nat) :
    (s.setCrc c).bytesFrom a n = s.bytesFrom a n := rfl

theorem encodePadded_bytes (idx len : Half) (s : State) (h : len.toNat ≤ s.capacity) :
    (encodePadded idx len s).bytesFrom 0 (s.capacity + 4) =
      frameBody idx len s.capacity (s.bytesFrom 4 len.toNat) := by
  apply List.ext_getElem
  · simp [h]
  · intro k h1 h2
    rw [State.length_bytesFrom] at h1
    rw [State.getElem_bytesFrom, encodePadded, State.byteAt_setBytes, State.byteAt_setBytes]
    simp only [frameBody, Nat.zero_add, length_frameHeader, List.length_replicate, Nat.zero_le, true_and,
      Nat.sub_zero]
    by_cases hk : k < 4
    · rw [if_neg (by omega), if_pos hk, List.getElem_append_left (by simp; omega),
        List.getElem_append_left (by simpa using hk), List.getD_eq_getElem _ _ (by simpa using hk)]
    · by_cases hp : k < 4 + len.toNat
      · rw [if_neg (by omega), if_neg hk, List.getElem_append_left (by simp; omega),
          List.getElem_append_right (by simp; omega)]
        simp only [length_frameHeader, State.getElem_bytesFrom]
        congr 1; omega
      · rw [if_pos (by omega), List.getElem_append_right (by simp; omega), List.getElem_replicate,
          List.getD_eq_getElem _ _ (by simp; omega), List.getElem_replicate]

/-- The frame buffer after EncodeFrame holds the encoded frame (R74). -/
theorem encodeFrame_bytes (idx len : Half) (s : State) (h : len.toNat ≤ s.capacity) :
    (encodeFrame idx len s).bytesFrom 0 (s.capacity + 6) =
      frameEncode s.params idx len s.capacity (s.bytesFrom 4 len.toNat) := by
  rw [encodeFrame_eq, State.bytesFrom_setCrc,
    show s.capacity + 6 = (s.capacity + 4) + 2 from rfl, State.bytesFrom_add, Nat.zero_add]
  unfold frameEncode
  congr 1
  · rw [← encodePadded_bytes idx len s h]
    apply State.bytesFrom_ext
    intro k hk
    rw [State.byteAt_setBytes, if_neg (by omega)]
  · rw [← encodePadded_bytes idx len s h]
    exact State.bytesFrom_setBytes_self _ _ _

/-- EncodeFrame leaves the bytes at index P + 6 and above (R74). -/
theorem encodeFrame_above (idx len : Half) (s : State) (h : len.toNat ≤ s.capacity) {j : Nat}
    (hj : s.capacity + 6 ≤ j) : (encodeFrame idx len s).byteAt j = s.byteAt j := by
  rw [encodeFrame_eq, State.byteAt_setCrc, State.byteAt_setBytes, if_neg (by simp only [length_le16Bytes]; omega), encodePadded,
    State.byteAt_setBytes, if_neg (by simp only [List.length_replicate]; omega), State.byteAt_setBytes,
    if_neg (by simp only [length_frameHeader]; omega)]

/-- EncodeFrame leaves the checksum it computed in CRC (R74). -/
theorem encodeFrame_crc (idx len : Half) (s : State) (h : len.toNat ≤ s.capacity) :
    (encodeFrame idx len s).crc =
      crcCompute s.params (frameBody idx len s.capacity (s.bytesFrom 4 len.toNat)) := by
  rw [encodeFrame_eq, encodePadded_bytes idx len s h]; rfl

/-! EncodeFrame writes FBUF and CRC and nothing else. -/

@[simp] theorem encodeFrame_mode (idx len : Half) (s : State) : (encodeFrame idx len s).mode = s.mode := by
  simp [encodeFrame_eq, encodePadded]
@[simp] theorem encodeFrame_result (idx len : Half) (s : State) : (encodeFrame idx len s).result = s.result := by
  simp [encodeFrame_eq, encodePadded]
@[simp] theorem encodeFrame_lenOver (idx len : Half) (s : State) : (encodeFrame idx len s).lenOver = s.lenOver := by
  simp [encodeFrame_eq, encodePadded]
@[simp] theorem encodeFrame_frameSize (idx len : Half) (s : State) : (encodeFrame idx len s).frameSize = s.frameSize := by
  simp [encodeFrame_eq, encodePadded]
@[simp] theorem encodeFrame_allowSkip (idx len : Half) (s : State) : (encodeFrame idx len s).allowSkip = s.allowSkip := by
  simp [encodeFrame_eq, encodePadded]
@[simp] theorem encodeFrame_seqMode (idx len : Half) (s : State) : (encodeFrame idx len s).seqMode = s.seqMode := by
  simp [encodeFrame_eq, encodePadded]
@[simp] theorem encodeFrame_bptr (idx len : Half) (s : State) : (encodeFrame idx len s).bptr = s.bptr := by
  simp [encodeFrame_eq, encodePadded]
@[simp] theorem encodeFrame_bufData (idx len : Half) (s : State) : (encodeFrame idx len s).bufData = s.bufData := by
  simp [encodeFrame_eq, encodePadded]
@[simp] theorem encodeFrame_txIndex (idx len : Half) (s : State) : (encodeFrame idx len s).txIndex = s.txIndex := by
  simp [encodeFrame_eq, encodePadded]
@[simp] theorem encodeFrame_txLength (idx len : Half) (s : State) : (encodeFrame idx len s).txLength = s.txLength := by
  simp [encodeFrame_eq, encodePadded]
@[simp] theorem encodeFrame_txTotal (idx len : Half) (s : State) : (encodeFrame idx len s).txTotal = s.txTotal := by
  simp [encodeFrame_eq, encodePadded]
@[simp] theorem encodeFrame_txRemain (idx len : Half) (s : State) : (encodeFrame idx len s).txRemain = s.txRemain := by
  simp [encodeFrame_eq, encodePadded]
@[simp] theorem encodeFrame_rxIndex (idx len : Half) (s : State) : (encodeFrame idx len s).rxIndex = s.rxIndex := by
  simp [encodeFrame_eq, encodePadded]
@[simp] theorem encodeFrame_rxLength (idx len : Half) (s : State) : (encodeFrame idx len s).rxLength = s.rxLength := by
  simp [encodeFrame_eq, encodePadded]
@[simp] theorem encodeFrame_rxStored (idx len : Half) (s : State) : (encodeFrame idx len s).rxStored = s.rxStored := by
  simp [encodeFrame_eq, encodePadded]
@[simp] theorem encodeFrame_rxCalc (idx len : Half) (s : State) : (encodeFrame idx len s).rxCalc = s.rxCalc := by
  simp [encodeFrame_eq, encodePadded]
@[simp] theorem encodeFrame_expected (idx len : Half) (s : State) : (encodeFrame idx len s).expected = s.expected := by
  simp [encodeFrame_eq, encodePadded]
@[simp] theorem encodeFrame_fcount (idx len : Half) (s : State) : (encodeFrame idx len s).fcount = s.fcount := by
  simp [encodeFrame_eq, encodePadded]
@[simp] theorem encodeFrame_phase (idx len : Half) (s : State) : (encodeFrame idx len s).phase = s.phase := by
  simp [encodeFrame_eq, encodePadded]
@[simp] theorem encodeFrame_draw (idx len : Half) (s : State) : (encodeFrame idx len s).draw = s.draw := by
  simp [encodeFrame_eq, encodePadded]
@[simp] theorem encodeFrame_out (idx len : Half) (s : State) : (encodeFrame idx len s).out = s.out := by
  simp [encodeFrame_eq, encodePadded]
@[simp] theorem encodeFrame_host (idx len : Half) (s : State) : (encodeFrame idx len s).host = s.host := by
  simp [encodeFrame_eq, encodePadded]
@[simp] theorem encodeFrame_reads (idx len : Half) (s : State) : (encodeFrame idx len s).reads = s.reads := by
  simp [encodeFrame_eq, encodePadded]
@[simp] theorem encodeFrame_params (idx len : Half) (s : State) : (encodeFrame idx len s).params = s.params := by
  simp [encodeFrame_eq, encodePadded]
@[simp] theorem encodeFrame_resets (idx len : Half) (s : State) : (encodeFrame idx len s).resets = s.resets := by
  simp [encodeFrame_eq, encodePadded]

/-- EncodeFrame keeps the buffer's canonical form. -/
theorem encodeFrame_wf (idx len : Half) {s : State} (h : Memory.wf s.draw s.fbuf) :
    Memory.wf s.draw (encodeFrame idx len s).fbuf := by
  rw [encodeFrame_eq]
  exact State.setBytes_wf (State.setBytes_wf (State.setBytes_wf h _ _) _ _) _ _

/-- EncodeFrame lists no index of P + 6 or above that was not listed. -/
theorem encodeFrame_index {idx len : Half} {s : State} (h : len.toNat ≤ s.capacity) {c : Host.Cell}
    (hc : c ∈ (encodeFrame idx len s).fbuf) : c.1 < s.capacity + 6 ∨ c ∈ s.fbuf := by
  rw [encodeFrame_eq] at hc
  rcases MemoryLaws.writeSeq_index _ hc with hc | hc
  · simp only [length_le16Bytes] at hc; omega
  · rcases MemoryLaws.writeSeq_index _ hc with hc | hc
    · simp only [List.length_replicate] at hc; omega
    · rcases MemoryLaws.writeSeq_index _ hc with hc | hc
      · simp only [length_frameHeader] at hc; omega
      · exact .inr hc

theorem State.fieldAt_congr {s t : State} (hd : t.draw = s.draw) (hf : t.fbuf = s.fbuf) (i : Nat) :
    t.fieldAt i = s.fieldAt i := by unfold State.fieldAt; rw [byteAt_congr hd hf, byteAt_congr hd hf]

/-- CheckFrame's values depend on the buffer, CONFIG and the parameters only. -/
theorem State.frameCheck_congr {s t : State} (hd : t.draw = s.draw) (hf : t.fbuf = s.fbuf)
    (hs : t.frameSize = s.frameSize) (hp : t.params = s.params) : t.frameCheck = s.frameCheck := by
  unfold State.frameCheck
  simp only [State.fieldAt_congr hd hf, State.bytesFrom_congr hd hf, State.capacity_congr hs, hp]

/-- A two-byte field of a frame in the buffer. -/
theorem fieldAt_bytesFrom (s : State) {n i : Nat} (h : i + 1 < n) : fieldAt (s.bytesFrom 0 n) i = s.fieldAt i := by
  unfold fieldAt State.fieldAt
  rw [State.getD_bytesFrom _ _ _ _ (by omega), State.getD_bytesFrom _ _ _ _ h, Nat.zero_add, Nat.zero_add]

/-- CheckFrame passes exactly the frames that Decode accepts, with Decode's values (R75). -/
theorem frameDecode_bytesFrom (s : State) :
    frameDecode s.params (s.bytesFrom 0 (s.capacity + 6)) s.capacity =
      if s.frameCheck.ok then .ok s.frameCheck.idx s.frameCheck.len (s.bytesFrom 4 s.capacity)
      else .mismatch s.frameCheck.stored s.frameCheck.computed := by
  unfold frameDecode State.frameCheck
  simp only [fieldAt_bytesFrom s (show s.capacity + 4 + 1 < s.capacity + 6 by omega),
    fieldAt_bytesFrom s (show 0 + 1 < s.capacity + 6 by omega),
    fieldAt_bytesFrom s (show 2 + 1 < s.capacity + 6 by omega),
    State.take_bytesFrom s 0 (s.capacity + 6) (s.capacity + 4) (by omega),
    State.drop_bytesFrom s 0 (s.capacity + 6) 4 (by omega),
    State.take_bytesFrom s (0 + 4) (s.capacity + 6 - 4) s.capacity (by omega), Nat.zero_add, beq_iff_eq]

/-! CheckFrame writes six registers and nothing else. -/

@[simp] theorem checkFrame_mode (s : State) : (checkFrame s).mode = s.mode := rfl
@[simp] theorem checkFrame_result (s : State) : (checkFrame s).result = s.result := rfl
@[simp] theorem checkFrame_frameSize (s : State) : (checkFrame s).frameSize = s.frameSize := rfl
@[simp] theorem checkFrame_allowSkip (s : State) : (checkFrame s).allowSkip = s.allowSkip := rfl
@[simp] theorem checkFrame_seqMode (s : State) : (checkFrame s).seqMode = s.seqMode := rfl
@[simp] theorem checkFrame_bptr (s : State) : (checkFrame s).bptr = s.bptr := rfl
@[simp] theorem checkFrame_bufData (s : State) : (checkFrame s).bufData = s.bufData := rfl
@[simp] theorem checkFrame_txIndex (s : State) : (checkFrame s).txIndex = s.txIndex := rfl
@[simp] theorem checkFrame_txLength (s : State) : (checkFrame s).txLength = s.txLength := rfl
@[simp] theorem checkFrame_txTotal (s : State) : (checkFrame s).txTotal = s.txTotal := rfl
@[simp] theorem checkFrame_txRemain (s : State) : (checkFrame s).txRemain = s.txRemain := rfl
@[simp] theorem checkFrame_expected (s : State) : (checkFrame s).expected = s.expected := rfl
@[simp] theorem checkFrame_fcount (s : State) : (checkFrame s).fcount = s.fcount := rfl
@[simp] theorem checkFrame_phase (s : State) : (checkFrame s).phase = s.phase := rfl
@[simp] theorem checkFrame_fbuf (s : State) : (checkFrame s).fbuf = s.fbuf := rfl
@[simp] theorem checkFrame_draw (s : State) : (checkFrame s).draw = s.draw := rfl
@[simp] theorem checkFrame_out (s : State) : (checkFrame s).out = s.out := rfl
@[simp] theorem checkFrame_host (s : State) : (checkFrame s).host = s.host := rfl
@[simp] theorem checkFrame_reads (s : State) : (checkFrame s).reads = s.reads := rfl
@[simp] theorem checkFrame_params (s : State) : (checkFrame s).params = s.params := rfl
@[simp] theorem checkFrame_resets (s : State) : (checkFrame s).resets = s.resets := rfl

/-- A frame that fails its checksum leaves RX_INDEX and RX_LENGTH and clears LEN_OVER (R75). -/
theorem checkFrame_of_mismatch {s : State} (h : s.frameCheck.ok = false) :
    checkFrame s =
      { s with
        rxStored := s.frameCheck.stored, rxCalc := s.frameCheck.computed, crc := s.frameCheck.computed
        lenOver := false } := by
  unfold checkFrame; simp [h, lenOverFlag]

/-- A frame that passes its checksum writes all six registers (R75). -/
theorem checkFrame_of_ok {s : State} (h : s.frameCheck.ok = true) :
    checkFrame s =
      { s with
        rxStored := s.frameCheck.stored, rxCalc := s.frameCheck.computed, crc := s.frameCheck.computed
        rxIndex := s.frameCheck.idx, rxLength := s.frameCheck.len
        lenOver := decide (s.capacity < s.frameCheck.len.toNat) } := by
  unfold checkFrame; simp [h, lenOverFlag]

/-- Equal checksums: what `ok` says. -/
theorem frameCheck_ok_iff (s : State) : s.frameCheck.ok = true ↔ s.frameCheck.computed = s.frameCheck.stored := by
  unfold State.frameCheck; simp

end Sys2Proof.Machine
end

