-- ==== Sys2Proof/Laws/PerInstr.lean ====
section
/-! SUPPORT. The per-instruction families: what is said of every command as syntax, one lemma for each. -/

namespace Sys2Proof.Laws

/-- A command's word fits its row of the opcode map: under the row's mask it is the row's match (30_encoding.md R50,
R52, R53). -/
def EncodeFits.Statement (i : Instr) : Prop := encode i &&& i.op.format.mask = i.op.code.setWidth 32

/-- A word with an OP value and a byte operand, under the mask of format B. -/
theorem EncodeFits.byteForm (op b : Byte) : assembleWord op b 0 &&& Format.b.mask = op.setWidth 32 := by
  simp only [Format.mask, assembleWord]
  ext i hi
  simp only [BitVec.getElem_and, BitVec.getElem_or, BitVec.getElem_setWidth, BitVec.getElem_shiftLeft]
  rcases (by omega : i < 8 ∨ (8 ≤ i ∧ i < 16) ∨ (16 ≤ i ∧ i < 32)) with h1 | ⟨h1, h2⟩ | ⟨h1, h2⟩
  all_goals interval_cases i <;> simp

/-- A word with an OP value and a half operand, under the mask of format H. -/
theorem EncodeFits.halfForm (op : Byte) (h : Half) : assembleWord op 0 h &&& Format.h.mask = op.setWidth 32 := by
  simp only [Format.mask, assembleWord]
  ext i hi
  simp only [BitVec.getElem_and, BitVec.getElem_or, BitVec.getElem_setWidth, BitVec.getElem_shiftLeft]
  rcases (by omega : i < 8 ∨ (8 ≤ i ∧ i < 16) ∨ (16 ≤ i ∧ i < 32)) with h1 | ⟨h1, h2⟩ | ⟨h1, h2⟩
  all_goals interval_cases i <;> simp

theorem EncodeFits.nop : EncodeFits.Statement .nop := by unfold EncodeFits.Statement; decide
theorem EncodeFits.crcInit : EncodeFits.Statement .crcInit := by unfold EncodeFits.Statement; decide
theorem EncodeFits.crcStep (b : Byte) : EncodeFits.Statement (.crcStep b) := EncodeFits.byteForm _ b
theorem EncodeFits.crcBulk (n : Half) : EncodeFits.Statement (.crcBulk n) := EncodeFits.halfForm _ n
theorem EncodeFits.bufSetptr (a : Half) : EncodeFits.Statement (.bufSetptr a) := EncodeFits.halfForm _ a
theorem EncodeFits.bufWrite (b : Byte) : EncodeFits.Statement (.bufWrite b) := EncodeFits.byteForm _ b
theorem EncodeFits.bufRead : EncodeFits.Statement .bufRead := by unfold EncodeFits.Statement; decide
theorem EncodeFits.frmEncode : EncodeFits.Statement .frmEncode := by unfold EncodeFits.Statement; decide
theorem EncodeFits.frmDecode : EncodeFits.Statement .frmDecode := by unfold EncodeFits.Statement; decide
theorem EncodeFits.txStart : EncodeFits.Statement .txStart := by unfold EncodeFits.Statement; decide
theorem EncodeFits.txByte (b : Byte) : EncodeFits.Statement (.txByte b) := EncodeFits.byteForm _ b
theorem EncodeFits.rxStart : EncodeFits.Statement .rxStart := by unfold EncodeFits.Statement; decide
theorem EncodeFits.rxByte (b : Byte) : EncodeFits.Statement (.rxByte b) := EncodeFits.byteForm _ b
theorem EncodeFits.rxEnd : EncodeFits.Statement .rxEnd := by unfold EncodeFits.Statement; decide
theorem EncodeFits.abort : EncodeFits.Statement .abort := by unfold EncodeFits.Statement; decide

end Sys2Proof.Laws
end

