-- ==== Sys2Proof/Laws/Splitter.lean ====
section
/-! SUPPORT. What each part of TX_BYTE does, once (43_splitter.md R81). -/

namespace Sys2Proof.Machine

/-! Storing the byte writes FBUF, FCOUNT and TX_REMAIN. -/

@[simp] theorem txAccept_mode (b : Byte) (s : State) : (txAccept b s).mode = s.mode := rfl
@[simp] theorem txAccept_result (b : Byte) (s : State) : (txAccept b s).result = s.result := rfl
@[simp] theorem txAccept_lenOver (b : Byte) (s : State) : (txAccept b s).lenOver = s.lenOver := rfl
@[simp] theorem txAccept_frameSize (b : Byte) (s : State) : (txAccept b s).frameSize = s.frameSize := rfl
@[simp] theorem txAccept_allowSkip (b : Byte) (s : State) : (txAccept b s).allowSkip = s.allowSkip := rfl
@[simp] theorem txAccept_seqMode (b : Byte) (s : State) : (txAccept b s).seqMode = s.seqMode := rfl
@[simp] theorem txAccept_crc (b : Byte) (s : State) : (txAccept b s).crc = s.crc := rfl
@[simp] theorem txAccept_bptr (b : Byte) (s : State) : (txAccept b s).bptr = s.bptr := rfl
@[simp] theorem txAccept_bufData (b : Byte) (s : State) : (txAccept b s).bufData = s.bufData := rfl
@[simp] theorem txAccept_txIndex (b : Byte) (s : State) : (txAccept b s).txIndex = s.txIndex := rfl
@[simp] theorem txAccept_txLength (b : Byte) (s : State) : (txAccept b s).txLength = s.txLength := rfl
@[simp] theorem txAccept_txTotal (b : Byte) (s : State) : (txAccept b s).txTotal = s.txTotal := rfl
@[simp] theorem txAccept_txRemain (b : Byte) (s : State) : (txAccept b s).txRemain = s.txRemain - 1 := rfl
@[simp] theorem txAccept_rxIndex (b : Byte) (s : State) : (txAccept b s).rxIndex = s.rxIndex := rfl
@[simp] theorem txAccept_rxLength (b : Byte) (s : State) : (txAccept b s).rxLength = s.rxLength := rfl
@[simp] theorem txAccept_rxStored (b : Byte) (s : State) : (txAccept b s).rxStored = s.rxStored := rfl
@[simp] theorem txAccept_rxCalc (b : Byte) (s : State) : (txAccept b s).rxCalc = s.rxCalc := rfl
@[simp] theorem txAccept_expected (b : Byte) (s : State) : (txAccept b s).expected = s.expected := rfl
@[simp] theorem txAccept_fcount (b : Byte) (s : State) : (txAccept b s).fcount = s.fcount + 1 := rfl
@[simp] theorem txAccept_phase (b : Byte) (s : State) : (txAccept b s).phase = s.phase := rfl
@[simp] theorem txAccept_fbuf (b : Byte) (s : State) : (txAccept b s).fbuf = Memory.write s.draw s.fbuf (4 + s.fcount.toNat) b :=
  rfl
@[simp] theorem txAccept_draw (b : Byte) (s : State) : (txAccept b s).draw = s.draw := rfl
@[simp] theorem txAccept_out (b : Byte) (s : State) : (txAccept b s).out = s.out := rfl
@[simp] theorem txAccept_host (b : Byte) (s : State) : (txAccept b s).host = s.host := rfl
@[simp] theorem txAccept_reads (b : Byte) (s : State) : (txAccept b s).reads = s.reads := rfl
@[simp] theorem txAccept_params (b : Byte) (s : State) : (txAccept b s).params = s.params := rfl
@[simp] theorem txAccept_resets (b : Byte) (s : State) : (txAccept b s).resets = s.resets := rfl

theorem byteAt_txAccept (b : Byte) (s : State) (j : Nat) :
    (txAccept b s).byteAt j = if j = 4 + s.fcount.toNat then b else s.byteAt j :=
  MemoryLaws.read_write s.draw s.fbuf (4 + s.fcount.toNat) b j

/-! Going on to the next frame writes TX_INDEX and FCOUNT. -/

@[simp] theorem txNextFrame_mode (s : State) : (txNextFrame s).mode = s.mode := rfl
@[simp] theorem txNextFrame_result (s : State) : (txNextFrame s).result = s.result := rfl
@[simp] theorem txNextFrame_lenOver (s : State) : (txNextFrame s).lenOver = s.lenOver := rfl
@[simp] theorem txNextFrame_frameSize (s : State) : (txNextFrame s).frameSize = s.frameSize := rfl
@[simp] theorem txNextFrame_allowSkip (s : State) : (txNextFrame s).allowSkip = s.allowSkip := rfl
@[simp] theorem txNextFrame_seqMode (s : State) : (txNextFrame s).seqMode = s.seqMode := rfl
@[simp] theorem txNextFrame_crc (s : State) : (txNextFrame s).crc = s.crc := rfl
@[simp] theorem txNextFrame_bptr (s : State) : (txNextFrame s).bptr = s.bptr := rfl
@[simp] theorem txNextFrame_bufData (s : State) : (txNextFrame s).bufData = s.bufData := rfl
@[simp] theorem txNextFrame_txIndex (s : State) : (txNextFrame s).txIndex = s.txIndex + 1 := rfl
@[simp] theorem txNextFrame_txLength (s : State) : (txNextFrame s).txLength = s.txLength := rfl
@[simp] theorem txNextFrame_txTotal (s : State) : (txNextFrame s).txTotal = s.txTotal := rfl
@[simp] theorem txNextFrame_txRemain (s : State) : (txNextFrame s).txRemain = s.txRemain := rfl
@[simp] theorem txNextFrame_rxIndex (s : State) : (txNextFrame s).rxIndex = s.rxIndex := rfl
@[simp] theorem txNextFrame_rxLength (s : State) : (txNextFrame s).rxLength = s.rxLength := rfl
@[simp] theorem txNextFrame_rxStored (s : State) : (txNextFrame s).rxStored = s.rxStored := rfl
@[simp] theorem txNextFrame_rxCalc (s : State) : (txNextFrame s).rxCalc = s.rxCalc := rfl
@[simp] theorem txNextFrame_expected (s : State) : (txNextFrame s).expected = s.expected := rfl
@[simp] theorem txNextFrame_fcount (s : State) : (txNextFrame s).fcount = 0 := rfl
@[simp] theorem txNextFrame_phase (s : State) : (txNextFrame s).phase = s.phase := rfl
@[simp] theorem txNextFrame_fbuf (s : State) : (txNextFrame s).fbuf = s.fbuf := rfl
@[simp] theorem txNextFrame_draw (s : State) : (txNextFrame s).draw = s.draw := rfl
@[simp] theorem txNextFrame_out (s : State) : (txNextFrame s).out = s.out := rfl
@[simp] theorem txNextFrame_host (s : State) : (txNextFrame s).host = s.host := rfl
@[simp] theorem txNextFrame_reads (s : State) : (txNextFrame s).reads = s.reads := rfl
@[simp] theorem txNextFrame_params (s : State) : (txNextFrame s).params = s.params := rfl
@[simp] theorem txNextFrame_resets (s : State) : (txNextFrame s).resets = s.resets := rfl

/-! Completing a frame writes TX_LENGTH, FBUF, CRC, the output stream, TX_INDEX and FCOUNT. -/

@[simp] theorem txFrameComplete_mode (s : State) : (txFrameComplete s).mode = s.mode := by simp [txFrameComplete]
@[simp] theorem txFrameComplete_result (s : State) : (txFrameComplete s).result = s.result :=
  by simp [txFrameComplete]
@[simp] theorem txFrameComplete_lenOver (s : State) : (txFrameComplete s).lenOver = s.lenOver :=
  by simp [txFrameComplete]
@[simp] theorem txFrameComplete_frameSize (s : State) : (txFrameComplete s).frameSize = s.frameSize :=
  by simp [txFrameComplete]
@[simp] theorem txFrameComplete_allowSkip (s : State) : (txFrameComplete s).allowSkip = s.allowSkip :=
  by simp [txFrameComplete]
@[simp] theorem txFrameComplete_seqMode (s : State) : (txFrameComplete s).seqMode = s.seqMode :=
  by simp [txFrameComplete]
@[simp] theorem txFrameComplete_bptr (s : State) : (txFrameComplete s).bptr = s.bptr := by simp [txFrameComplete]
@[simp] theorem txFrameComplete_bufData (s : State) : (txFrameComplete s).bufData = s.bufData :=
  by simp [txFrameComplete]
@[simp] theorem txFrameComplete_txIndex (s : State) : (txFrameComplete s).txIndex = s.txIndex + 1 :=
  by simp [txFrameComplete]
@[simp] theorem txFrameComplete_txLength (s : State) : (txFrameComplete s).txLength = s.fcount :=
  by simp [txFrameComplete]
@[simp] theorem txFrameComplete_txTotal (s : State) : (txFrameComplete s).txTotal = s.txTotal :=
  by simp [txFrameComplete]
@[simp] theorem txFrameComplete_txRemain (s : State) : (txFrameComplete s).txRemain = s.txRemain :=
  by simp [txFrameComplete]
@[simp] theorem txFrameComplete_rxIndex (s : State) : (txFrameComplete s).rxIndex = s.rxIndex :=
  by simp [txFrameComplete]
@[simp] theorem txFrameComplete_rxLength (s : State) : (txFrameComplete s).rxLength = s.rxLength :=
  by simp [txFrameComplete]
@[simp] theorem txFrameComplete_rxStored (s : State) : (txFrameComplete s).rxStored = s.rxStored :=
  by simp [txFrameComplete]
@[simp] theorem txFrameComplete_rxCalc (s : State) : (txFrameComplete s).rxCalc = s.rxCalc :=
  by simp [txFrameComplete]
@[simp] theorem txFrameComplete_expected (s : State) : (txFrameComplete s).expected = s.expected :=
  by simp [txFrameComplete]
@[simp] theorem txFrameComplete_fcount (s : State) : (txFrameComplete s).fcount = 0 := by simp [txFrameComplete]
@[simp] theorem txFrameComplete_phase (s : State) : (txFrameComplete s).phase = s.phase := by simp [txFrameComplete]
@[simp] theorem txFrameComplete_draw (s : State) : (txFrameComplete s).draw = s.draw := by simp [txFrameComplete]
@[simp] theorem txFrameComplete_host (s : State) : (txFrameComplete s).host = s.host := by simp [txFrameComplete]
@[simp] theorem txFrameComplete_reads (s : State) : (txFrameComplete s).reads = s.reads := by simp [txFrameComplete]
@[simp] theorem txFrameComplete_params (s : State) : (txFrameComplete s).params = s.params :=
  by simp [txFrameComplete]
@[simp] theorem txFrameComplete_resets (s : State) : (txFrameComplete s).resets = s.resets :=
  by simp [txFrameComplete]

/-- The state in which TX_BYTE builds the frame. -/
def txBuilt (s : State) : State := encodeFrame s.txIndex s.fcount { s with txLength := s.fcount }

theorem txFrameComplete_fbuf (s : State) : (txFrameComplete s).fbuf = (txBuilt s).fbuf := rfl

theorem byteAt_txFrameComplete (s : State) (j : Nat) : (txFrameComplete s).byteAt j = (txBuilt s).byteAt j :=
  State.byteAt_congr (by simp [txBuilt]) (txFrameComplete_fbuf s) j

/-- The frame a complete payload makes: the encoded frame of TX_INDEX, FCOUNT and the collected bytes (R81). -/
def State.txFrameBytes (s : State) : List Byte :=
  frameEncode s.params s.txIndex s.fcount s.capacity (s.bytesFrom 4 s.fcount.toNat)

theorem txBuilt_bytes (s : State) (h : s.fcount.toNat ≤ s.capacity) :
    (txBuilt s).bytesFrom 0 (s.capacity + 6) = s.txFrameBytes :=
  encodeFrame_bytes s.txIndex s.fcount { s with txLength := s.fcount } h

/-- The frame buffer holds the frame afterwards. -/
theorem txFrameComplete_bytes (s : State) (h : s.fcount.toNat ≤ s.capacity) :
    (txFrameComplete s).bytesFrom 0 (s.capacity + 6) = s.txFrameBytes := by
  rw [← txBuilt_bytes s h]
  exact State.bytesFrom_congr (by simp [txBuilt]) (txFrameComplete_fbuf s) _ _

theorem txFrameComplete_above (s : State) (h : s.fcount.toNat ≤ s.capacity) {j : Nat} (hj : s.capacity + 6 ≤ j) :
    (txFrameComplete s).byteAt j = s.byteAt j := by
  rw [byteAt_txFrameComplete]
  exact encodeFrame_above s.txIndex s.fcount { s with txLength := s.fcount } h hj

/-- What a complete frame appends to the output stream: its bytes, then its TX_FRAME event (R81). -/
theorem txFrameComplete_out (s : State) (h : s.fcount.toNat ≤ s.capacity) :
    (txFrameComplete s).out =
      s.out ++ (s.txFrameBytes.map Item.data ++ [.event (.txFrame s.txIndex s.fcount)]) := by
  rw [← txBuilt_bytes s h]
  show (txBuilt s).out ++ _ = _
  simp [txBuilt]

/-- CRC holds the frame's checksum afterwards (R20, R74). -/
theorem txFrameComplete_crc (s : State) (h : s.fcount.toNat ≤ s.capacity) :
    (txFrameComplete s).crc =
      crcCompute s.params (frameBody s.txIndex s.fcount s.capacity (s.bytesFrom 4 s.fcount.toNat)) :=
  encodeFrame_crc s.txIndex s.fcount { s with txLength := s.fcount } h

/-! Ending the session writes the output stream and MODE. -/

@[simp] theorem txFinish_mode (s : State) : (txFinish s).mode = .idle := rfl
@[simp] theorem txFinish_result (s : State) : (txFinish s).result = s.result := rfl
@[simp] theorem txFinish_lenOver (s : State) : (txFinish s).lenOver = s.lenOver := rfl
@[simp] theorem txFinish_frameSize (s : State) : (txFinish s).frameSize = s.frameSize := rfl
@[simp] theorem txFinish_allowSkip (s : State) : (txFinish s).allowSkip = s.allowSkip := rfl
@[simp] theorem txFinish_seqMode (s : State) : (txFinish s).seqMode = s.seqMode := rfl
@[simp] theorem txFinish_crc (s : State) : (txFinish s).crc = s.crc := rfl
@[simp] theorem txFinish_bptr (s : State) : (txFinish s).bptr = s.bptr := rfl
@[simp] theorem txFinish_bufData (s : State) : (txFinish s).bufData = s.bufData := rfl
@[simp] theorem txFinish_txIndex (s : State) : (txFinish s).txIndex = s.txIndex := rfl
@[simp] theorem txFinish_txLength (s : State) : (txFinish s).txLength = s.txLength := rfl
@[simp] theorem txFinish_txTotal (s : State) : (txFinish s).txTotal = s.txTotal := rfl
@[simp] theorem txFinish_txRemain (s : State) : (txFinish s).txRemain = s.txRemain := rfl
@[simp] theorem txFinish_rxIndex (s : State) : (txFinish s).rxIndex = s.rxIndex := rfl
@[simp] theorem txFinish_rxLength (s : State) : (txFinish s).rxLength = s.rxLength := rfl
@[simp] theorem txFinish_rxStored (s : State) : (txFinish s).rxStored = s.rxStored := rfl
@[simp] theorem txFinish_rxCalc (s : State) : (txFinish s).rxCalc = s.rxCalc := rfl
@[simp] theorem txFinish_expected (s : State) : (txFinish s).expected = s.expected := rfl
@[simp] theorem txFinish_fcount (s : State) : (txFinish s).fcount = s.fcount := rfl
@[simp] theorem txFinish_phase (s : State) : (txFinish s).phase = s.phase := rfl
@[simp] theorem txFinish_fbuf (s : State) : (txFinish s).fbuf = s.fbuf := rfl
@[simp] theorem txFinish_draw (s : State) : (txFinish s).draw = s.draw := rfl
@[simp] theorem txFinish_out (s : State) : (txFinish s).out = s.out ++ [.event (.txDone (BitVec.ofNat 17 s.framesNeeded))] :=
  rfl
@[simp] theorem txFinish_host (s : State) : (txFinish s).host = s.host := rfl
@[simp] theorem txFinish_reads (s : State) : (txFinish s).reads = s.reads := rfl
@[simp] theorem txFinish_params (s : State) : (txFinish s).params = s.params := rfl
@[simp] theorem txFinish_resets (s : State) : (txFinish s).resets = s.resets := rfl

/-- The three ways TX_BYTE's own rule ends: the frame goes on, a frame is complete, the last frame is complete. -/
theorem txByte_cases (b : Byte) (s : State) :
    (((txAccept b s).fcount.toNat ≠ s.capacity ∧ (txAccept b s).txRemain ≠ 0) ∧
        txByte b s = (txAccept b s).done) ∨
      (((txAccept b s).fcount.toNat = s.capacity ∧ (txAccept b s).txRemain ≠ 0) ∧
        txByte b s = (txFrameComplete (txAccept b s)).done) ∨
      ((txAccept b s).txRemain = 0 ∧ txByte b s = (txFinish (txFrameComplete (txAccept b s))).done) := by
  have hc : (txAccept b s).capacity = s.capacity := State.capacity_congr rfl
  unfold txByte
  simp only [hc]
  by_cases h0 : (txAccept b s).txRemain = 0
  · right; right
    refine ⟨h0, ?_⟩
    rw [if_pos (Or.inr h0), if_pos h0]
  · by_cases h1 : (txAccept b s).fcount.toNat = s.capacity
    · right; left
      refine ⟨⟨h1, h0⟩, ?_⟩
      rw [if_pos (Or.inl h1), if_neg h0]
    · left
      refine ⟨⟨h1, h0⟩, ?_⟩
      rw [if_neg (by tauto)]

end Sys2Proof.Machine
end

