-- ==== Sys2Proof/Laws/Reassembler.lean ====
section
/-! SUPPORT. What each part of RX_BYTE does, once (44_reassembler.md R84, R89). -/

namespace Sys2Proof.Machine

/-! Storing the byte writes FBUF and FCOUNT. -/

@[simp] theorem rxAccept_mode (b : Byte) (s : State) : (rxAccept b s).mode = s.mode := rfl
@[simp] theorem rxAccept_result (b : Byte) (s : State) : (rxAccept b s).result = s.result := rfl
@[simp] theorem rxAccept_lenOver (b : Byte) (s : State) : (rxAccept b s).lenOver = s.lenOver := rfl
@[simp] theorem rxAccept_frameSize (b : Byte) (s : State) : (rxAccept b s).frameSize = s.frameSize := rfl
@[simp] theorem rxAccept_allowSkip (b : Byte) (s : State) : (rxAccept b s).allowSkip = s.allowSkip := rfl
@[simp] theorem rxAccept_seqMode (b : Byte) (s : State) : (rxAccept b s).seqMode = s.seqMode := rfl
@[simp] theorem rxAccept_crc (b : Byte) (s : State) : (rxAccept b s).crc = s.crc := rfl
@[simp] theorem rxAccept_bptr (b : Byte) (s : State) : (rxAccept b s).bptr = s.bptr := rfl
@[simp] theorem rxAccept_bufData (b : Byte) (s : State) : (rxAccept b s).bufData = s.bufData := rfl
@[simp] theorem rxAccept_txIndex (b : Byte) (s : State) : (rxAccept b s).txIndex = s.txIndex := rfl
@[simp] theorem rxAccept_txLength (b : Byte) (s : State) : (rxAccept b s).txLength = s.txLength := rfl
@[simp] theorem rxAccept_txTotal (b : Byte) (s : State) : (rxAccept b s).txTotal = s.txTotal := rfl
@[simp] theorem rxAccept_txRemain (b : Byte) (s : State) : (rxAccept b s).txRemain = s.txRemain := rfl
@[simp] theorem rxAccept_rxIndex (b : Byte) (s : State) : (rxAccept b s).rxIndex = s.rxIndex := rfl
@[simp] theorem rxAccept_rxLength (b : Byte) (s : State) : (rxAccept b s).rxLength = s.rxLength := rfl
@[simp] theorem rxAccept_rxStored (b : Byte) (s : State) : (rxAccept b s).rxStored = s.rxStored := rfl
@[simp] theorem rxAccept_rxCalc (b : Byte) (s : State) : (rxAccept b s).rxCalc = s.rxCalc := rfl
@[simp] theorem rxAccept_expected (b : Byte) (s : State) : (rxAccept b s).expected = s.expected := rfl
@[simp] theorem rxAccept_fcount (b : Byte) (s : State) : (rxAccept b s).fcount = s.fcount + 1 := rfl
@[simp] theorem rxAccept_phase (b : Byte) (s : State) : (rxAccept b s).phase = s.phase := rfl
@[simp] theorem rxAccept_fbuf (b : Byte) (s : State) : (rxAccept b s).fbuf = Memory.write s.draw s.fbuf s.fcount.toNat b :=
  rfl
@[simp] theorem rxAccept_draw (b : Byte) (s : State) : (rxAccept b s).draw = s.draw := rfl
@[simp] theorem rxAccept_out (b : Byte) (s : State) : (rxAccept b s).out = s.out := rfl
@[simp] theorem rxAccept_host (b : Byte) (s : State) : (rxAccept b s).host = s.host := rfl
@[simp] theorem rxAccept_reads (b : Byte) (s : State) : (rxAccept b s).reads = s.reads := rfl
@[simp] theorem rxAccept_params (b : Byte) (s : State) : (rxAccept b s).params = s.params := rfl
@[simp] theorem rxAccept_resets (b : Byte) (s : State) : (rxAccept b s).resets = s.resets := rfl

theorem byteAt_rxAccept (b : Byte) (s : State) (j : Nat) :
    (rxAccept b s).byteAt j = if j = s.fcount.toNat then b else s.byteAt j :=
  MemoryLaws.read_write s.draw s.fbuf s.fcount.toNat b j

/-! Going on to the separator writes FCOUNT and PHASE. -/

@[simp] theorem rxToSeparator_mode (s : State) : (rxToSeparator s).mode = s.mode := rfl
@[simp] theorem rxToSeparator_result (s : State) : (rxToSeparator s).result = s.result := rfl
@[simp] theorem rxToSeparator_lenOver (s : State) : (rxToSeparator s).lenOver = s.lenOver := rfl
@[simp] theorem rxToSeparator_frameSize (s : State) : (rxToSeparator s).frameSize = s.frameSize := rfl
@[simp] theorem rxToSeparator_allowSkip (s : State) : (rxToSeparator s).allowSkip = s.allowSkip := rfl
@[simp] theorem rxToSeparator_seqMode (s : State) : (rxToSeparator s).seqMode = s.seqMode := rfl
@[simp] theorem rxToSeparator_crc (s : State) : (rxToSeparator s).crc = s.crc := rfl
@[simp] theorem rxToSeparator_bptr (s : State) : (rxToSeparator s).bptr = s.bptr := rfl
@[simp] theorem rxToSeparator_bufData (s : State) : (rxToSeparator s).bufData = s.bufData := rfl
@[simp] theorem rxToSeparator_txIndex (s : State) : (rxToSeparator s).txIndex = s.txIndex := rfl
@[simp] theorem rxToSeparator_txLength (s : State) : (rxToSeparator s).txLength = s.txLength := rfl
@[simp] theorem rxToSeparator_txTotal (s : State) : (rxToSeparator s).txTotal = s.txTotal := rfl
@[simp] theorem rxToSeparator_txRemain (s : State) : (rxToSeparator s).txRemain = s.txRemain := rfl
@[simp] theorem rxToSeparator_rxIndex (s : State) : (rxToSeparator s).rxIndex = s.rxIndex := rfl
@[simp] theorem rxToSeparator_rxLength (s : State) : (rxToSeparator s).rxLength = s.rxLength := rfl
@[simp] theorem rxToSeparator_rxStored (s : State) : (rxToSeparator s).rxStored = s.rxStored := rfl
@[simp] theorem rxToSeparator_rxCalc (s : State) : (rxToSeparator s).rxCalc = s.rxCalc := rfl
@[simp] theorem rxToSeparator_expected (s : State) : (rxToSeparator s).expected = s.expected := rfl
@[simp] theorem rxToSeparator_fcount (s : State) : (rxToSeparator s).fcount = 0 := rfl
@[simp] theorem rxToSeparator_phase (s : State) : (rxToSeparator s).phase = .separator := rfl
@[simp] theorem rxToSeparator_fbuf (s : State) : (rxToSeparator s).fbuf = s.fbuf := rfl
@[simp] theorem rxToSeparator_draw (s : State) : (rxToSeparator s).draw = s.draw := rfl
@[simp] theorem rxToSeparator_out (s : State) : (rxToSeparator s).out = s.out := rfl
@[simp] theorem rxToSeparator_host (s : State) : (rxToSeparator s).host = s.host := rfl
@[simp] theorem rxToSeparator_reads (s : State) : (rxToSeparator s).reads = s.reads := rfl
@[simp] theorem rxToSeparator_params (s : State) : (rxToSeparator s).params = s.params := rfl
@[simp] theorem rxToSeparator_resets (s : State) : (rxToSeparator s).resets = s.resets := rfl

/-! The verdict on a frame writes EXPECTED and the output stream. -/

@[simp] theorem rxVerdict_mode (k : FrameCheck) (s : State) : (rxVerdict k s).mode = s.mode :=
  by
  unfold rxVerdict; split_ifs <;> rfl
@[simp] theorem rxVerdict_result (k : FrameCheck) (s : State) : (rxVerdict k s).result = s.result :=
  by
  unfold rxVerdict; split_ifs <;> rfl
@[simp] theorem rxVerdict_lenOver (k : FrameCheck) (s : State) : (rxVerdict k s).lenOver = s.lenOver :=
  by
  unfold rxVerdict; split_ifs <;> rfl
@[simp] theorem rxVerdict_frameSize (k : FrameCheck) (s : State) : (rxVerdict k s).frameSize = s.frameSize :=
  by
  unfold rxVerdict; split_ifs <;> rfl
@[simp] theorem rxVerdict_allowSkip (k : FrameCheck) (s : State) : (rxVerdict k s).allowSkip = s.allowSkip :=
  by
  unfold rxVerdict; split_ifs <;> rfl
@[simp] theorem rxVerdict_seqMode (k : FrameCheck) (s : State) : (rxVerdict k s).seqMode = s.seqMode :=
  by
  unfold rxVerdict; split_ifs <;> rfl
@[simp] theorem rxVerdict_crc (k : FrameCheck) (s : State) : (rxVerdict k s).crc = s.crc :=
  by
  unfold rxVerdict; split_ifs <;> rfl
@[simp] theorem rxVerdict_bptr (k : FrameCheck) (s : State) : (rxVerdict k s).bptr = s.bptr :=
  by
  unfold rxVerdict; split_ifs <;> rfl
@[simp] theorem rxVerdict_bufData (k : FrameCheck) (s : State) : (rxVerdict k s).bufData = s.bufData :=
  by
  unfold rxVerdict; split_ifs <;> rfl
@[simp] theorem rxVerdict_txIndex (k : FrameCheck) (s : State) : (rxVerdict k s).txIndex = s.txIndex :=
  by
  unfold rxVerdict; split_ifs <;> rfl
@[simp] theorem rxVerdict_txLength (k : FrameCheck) (s : State) : (rxVerdict k s).txLength = s.txLength :=
  by
  unfold rxVerdict; split_ifs <;> rfl
@[simp] theorem rxVerdict_txTotal (k : FrameCheck) (s : State) : (rxVerdict k s).txTotal = s.txTotal :=
  by
  unfold rxVerdict; split_ifs <;> rfl
@[simp] theorem rxVerdict_txRemain (k : FrameCheck) (s : State) : (rxVerdict k s).txRemain = s.txRemain :=
  by
  unfold rxVerdict; split_ifs <;> rfl
@[simp] theorem rxVerdict_rxIndex (k : FrameCheck) (s : State) : (rxVerdict k s).rxIndex = s.rxIndex :=
  by
  unfold rxVerdict; split_ifs <;> rfl
@[simp] theorem rxVerdict_rxLength (k : FrameCheck) (s : State) : (rxVerdict k s).rxLength = s.rxLength :=
  by
  unfold rxVerdict; split_ifs <;> rfl
@[simp] theorem rxVerdict_rxStored (k : FrameCheck) (s : State) : (rxVerdict k s).rxStored = s.rxStored :=
  by
  unfold rxVerdict; split_ifs <;> rfl
@[simp] theorem rxVerdict_rxCalc (k : FrameCheck) (s : State) : (rxVerdict k s).rxCalc = s.rxCalc :=
  by
  unfold rxVerdict; split_ifs <;> rfl
@[simp] theorem rxVerdict_fcount (k : FrameCheck) (s : State) : (rxVerdict k s).fcount = s.fcount :=
  by
  unfold rxVerdict; split_ifs <;> rfl
@[simp] theorem rxVerdict_phase (k : FrameCheck) (s : State) : (rxVerdict k s).phase = s.phase :=
  by
  unfold rxVerdict; split_ifs <;> rfl
@[simp] theorem rxVerdict_fbuf (k : FrameCheck) (s : State) : (rxVerdict k s).fbuf = s.fbuf :=
  by
  unfold rxVerdict; split_ifs <;> rfl
@[simp] theorem rxVerdict_draw (k : FrameCheck) (s : State) : (rxVerdict k s).draw = s.draw :=
  by
  unfold rxVerdict; split_ifs <;> rfl
@[simp] theorem rxVerdict_host (k : FrameCheck) (s : State) : (rxVerdict k s).host = s.host :=
  by
  unfold rxVerdict; split_ifs <;> rfl
@[simp] theorem rxVerdict_reads (k : FrameCheck) (s : State) : (rxVerdict k s).reads = s.reads :=
  by
  unfold rxVerdict; split_ifs <;> rfl
@[simp] theorem rxVerdict_params (k : FrameCheck) (s : State) : (rxVerdict k s).params = s.params :=
  by
  unfold rxVerdict; split_ifs <;> rfl
@[simp] theorem rxVerdict_resets (k : FrameCheck) (s : State) : (rxVerdict k s).resets = s.resets :=
  by
  unfold rxVerdict; split_ifs <;> rfl

/-! FrameComplete leaves everything but CheckFrame's registers, EXPECTED and the output stream. -/

@[simp] theorem rxFrameComplete_mode (s : State) : (rxFrameComplete s).mode = s.mode := by simp [rxFrameComplete]
@[simp] theorem rxFrameComplete_result (s : State) : (rxFrameComplete s).result = s.result :=
  by simp [rxFrameComplete]
@[simp] theorem rxFrameComplete_frameSize (s : State) : (rxFrameComplete s).frameSize = s.frameSize :=
  by simp [rxFrameComplete]
@[simp] theorem rxFrameComplete_allowSkip (s : State) : (rxFrameComplete s).allowSkip = s.allowSkip :=
  by simp [rxFrameComplete]
@[simp] theorem rxFrameComplete_seqMode (s : State) : (rxFrameComplete s).seqMode = s.seqMode :=
  by simp [rxFrameComplete]
@[simp] theorem rxFrameComplete_bptr (s : State) : (rxFrameComplete s).bptr = s.bptr := by simp [rxFrameComplete]
@[simp] theorem rxFrameComplete_bufData (s : State) : (rxFrameComplete s).bufData = s.bufData :=
  by simp [rxFrameComplete]
@[simp] theorem rxFrameComplete_txIndex (s : State) : (rxFrameComplete s).txIndex = s.txIndex :=
  by simp [rxFrameComplete]
@[simp] theorem rxFrameComplete_txLength (s : State) : (rxFrameComplete s).txLength = s.txLength :=
  by simp [rxFrameComplete]
@[simp] theorem rxFrameComplete_txTotal (s : State) : (rxFrameComplete s).txTotal = s.txTotal :=
  by simp [rxFrameComplete]
@[simp] theorem rxFrameComplete_txRemain (s : State) : (rxFrameComplete s).txRemain = s.txRemain :=
  by simp [rxFrameComplete]
@[simp] theorem rxFrameComplete_fcount (s : State) : (rxFrameComplete s).fcount = s.fcount :=
  by simp [rxFrameComplete]
@[simp] theorem rxFrameComplete_phase (s : State) : (rxFrameComplete s).phase = s.phase := by simp [rxFrameComplete]
@[simp] theorem rxFrameComplete_fbuf (s : State) : (rxFrameComplete s).fbuf = s.fbuf := by simp [rxFrameComplete]
@[simp] theorem rxFrameComplete_draw (s : State) : (rxFrameComplete s).draw = s.draw := by simp [rxFrameComplete]
@[simp] theorem rxFrameComplete_host (s : State) : (rxFrameComplete s).host = s.host := by simp [rxFrameComplete]
@[simp] theorem rxFrameComplete_reads (s : State) : (rxFrameComplete s).reads = s.reads := by simp [rxFrameComplete]
@[simp] theorem rxFrameComplete_params (s : State) : (rxFrameComplete s).params = s.params :=
  by simp [rxFrameComplete]
@[simp] theorem rxFrameComplete_resets (s : State) : (rxFrameComplete s).resets = s.resets :=
  by simp [rxFrameComplete]

theorem rxFrameComplete_rxStored (s : State) : (rxFrameComplete s).rxStored = (checkFrame s).rxStored := by
  simp [rxFrameComplete]
theorem rxFrameComplete_rxCalc (s : State) : (rxFrameComplete s).rxCalc = (checkFrame s).rxCalc := by
  simp [rxFrameComplete]
theorem rxFrameComplete_crc (s : State) : (rxFrameComplete s).crc = (checkFrame s).crc := by
  simp [rxFrameComplete]
theorem rxFrameComplete_rxIndex (s : State) : (rxFrameComplete s).rxIndex = (checkFrame s).rxIndex := by
  simp [rxFrameComplete]
theorem rxFrameComplete_rxLength (s : State) : (rxFrameComplete s).rxLength = (checkFrame s).rxLength := by
  simp [rxFrameComplete]
theorem rxFrameComplete_lenOver (s : State) : (rxFrameComplete s).lenOver = (checkFrame s).lenOver := by
  simp [rxFrameComplete]

/-- FrameComplete is Process (R84) on the frame in the buffer: its new expected index and its items. -/
theorem rxFrameComplete_process (s : State) :
    (rxFrameComplete s).expected =
        (processFrame s.params (s.bytesFrom 0 (s.capacity + 6)) s.expected s.capacity s.allowSkip s.seqMode).1 ∧
      (rxFrameComplete s).out = s.out ++
        (processFrame s.params (s.bytesFrom 0 (s.capacity + 6)) s.expected s.capacity s.allowSkip s.seqMode).2 := by
  have hidx : fieldAt (s.bytesFrom 0 (s.capacity + 6)) 0 = s.frameCheck.idx :=
    fieldAt_bytesFrom s (show 0 + 1 < s.capacity + 6 by omega)
  have hcap : (checkFrame s).capacity = s.capacity := rfl
  have hbytes : ∀ n, (checkFrame s).bytesFrom 4 n = s.bytesFrom 4 n := fun n => State.bytesFrom_congr rfl rfl 4 n
  unfold processFrame
  rw [frameDecode_bytesFrom]
  unfold rxFrameComplete rxVerdict
  cases hk : s.frameCheck.ok with
  | false => simp [hidx]
  | true =>
    simp only [Bool.not_true, Bool.false_eq_true, if_false, if_true, checkFrame_expected, checkFrame_allowSkip, hcap]
    cases ha : admits s.frameCheck.idx s.expected s.allowSkip with
    | false => simp
    | true =>
      simp only [Bool.not_true, Bool.false_eq_true, if_false]
      by_cases hl : s.capacity < s.frameCheck.len.toNat
      · simp [hl]
      · simp only [if_neg hl, State.emit_expected, State.emit_out, checkFrame_seqMode, checkFrame_out, true_and]
        rw [State.take_bytesFrom _ _ _ _ (by omega), hbytes]

/-- The three ways RX_BYTE's own rule ends: a separator, a frame that goes on, a frame that is complete. -/
theorem rxByte_cases (b : Byte) (s : State) :
    (s.phase = .separator ∧ rxByte b s = { s with phase := .frame }.done) ∨
      ((s.phase = .frame ∧ (rxAccept b s).fcount ≠ s.frameSize) ∧ rxByte b s = (rxAccept b s).done) ∨
      ((s.phase = .frame ∧ (rxAccept b s).fcount = s.frameSize) ∧
        rxByte b s = (rxFrameComplete (rxToSeparator (rxAccept b s))).done) := by
  unfold rxByte
  cases hp : s.phase with
  | separator => exact .inl ⟨rfl, rfl⟩
  | frame =>
    right
    by_cases h : (rxAccept b s).fcount = s.frameSize
    · right; exact ⟨⟨rfl, h⟩, if_pos h⟩
    · left; exact ⟨⟨rfl, h⟩, if_neg h⟩

end Sys2Proof.Machine
end

