-- ==== Sys2Proof/Laws/Registers.lean ====
section
/-! SUPPORT. What each register offset reads as, once (45_control.md R95), and how a packed register's word adds up
from its fields. -/

namespace Sys2Proof.Machine

@[simp] theorem readReg_status (s : State) : s.readReg 0x04 = s.statusWord := rfl
@[simp] theorem readReg_config (s : State) : s.readReg 0x08 = s.configWord := rfl
@[simp] theorem readReg_crc (s : State) : s.readReg 0x0C = s.crc.setWidth 32 := rfl
@[simp] theorem readReg_bptr (s : State) : s.readReg 0x10 = s.bptr.setWidth 32 := rfl
@[simp] theorem readReg_bufData (s : State) : s.readReg 0x14 = s.bufData.setWidth 32 := rfl
@[simp] theorem readReg_txIndex (s : State) : s.readReg 0x18 = s.txIndex.setWidth 32 := rfl
@[simp] theorem readReg_txLength (s : State) : s.readReg 0x1C = s.txLength.setWidth 32 := rfl
@[simp] theorem readReg_txTotal (s : State) : s.readReg 0x20 = s.txTotal := rfl
@[simp] theorem readReg_txRemain (s : State) : s.readReg 0x24 = s.txRemain := rfl
@[simp] theorem readReg_rxIndex (s : State) : s.readReg 0x28 = s.rxIndex.setWidth 32 := rfl
@[simp] theorem readReg_rxLength (s : State) : s.readReg 0x2C = s.rxLength.setWidth 32 := rfl
@[simp] theorem readReg_rxCrc (s : State) : s.readReg 0x30 = s.rxCrcWord := rfl
@[simp] theorem readReg_expected (s : State) : s.readReg 0x34 = s.expected.setWidth 32 := rfl
@[simp] theorem readReg_fcount (s : State) : s.readReg 0x38 = s.fcountWord := rfl

/-- CMD, the reserved offsets and the unaligned ones read as 0. -/
theorem readReg_zero (s : State) {off : Byte} (h : off.toNat = 0 ∨ off.toNat % 4 ≠ 0 ∨ 0x38 < off.toNat) :
    s.readReg off = 0 := by
  unfold State.readReg
  split <;> first | rfl | (rename_i hq; exfalso; omega)

/-- A concatenation of two fields, as a number. -/
theorem toNat_append_eq {v w : Nat} (x : BitVec v) (y : BitVec w) :
    (x ++ y).toNat = y.toNat + 2 ^ w * x.toNat := by
  rw [BitVec.toNat_append, Nat.shiftLeft_eq, Nat.mul_comm, ← Nat.two_pow_add_eq_or_of_lt y.isLt]; omega

/-- A concatenation that fits a register, zero-extended (R95), as a number. -/
theorem toNat_append_setWidth {v w : Nat} (h : v + w ≤ 32) (x : BitVec v) (y : BitVec w) :
    ((x ++ y).setWidth 32).toNat = y.toNat + 2 ^ w * x.toNat := by
  rw [BitVec.toNat_setWidth, toNat_append_eq, Nat.mod_eq_of_lt]
  rw [← toNat_append_eq]
  exact Nat.lt_of_lt_of_le (x ++ y).isLt (Nat.pow_le_pow_right (by decide) h)

/-- Bits 15..0 of a written value, as a number (R96). -/
theorem lowHalf_eq (v : Word) : lowHalf v = BitVec.ofNat 16 (v.toNat % 65536) := by
  apply BitVec.eq_of_toNat_eq; simp [lowHalf]

/-- One bit of a written value, as a number (R96). -/
theorem getLsbD_eq_div_mod (v : Word) (k : Nat) : v.getLsbD k = (v.toNat / 2 ^ k % 2 == 1) := by
  rw [BitVec.getLsbD, Nat.testBit_eq_decide_div_mod_eq]; rfl

end Sys2Proof.Machine
end

