-- ==== Sys2Proof/Laws/Step.lean ====
section
/-! SUPPORT. What a step can do, once (70_reset_and_hazards.md R115): the inversion of the step into the host's
transactions, and of a command into the guarded rules. -/

namespace Sys2Proof.Machine

theorem step_of_idle_host {s : State} (h : s.host = []) : step s = .next s := by
  unfold step nextTransaction; rw [h]

theorem step_of_host {s : State} {t : Txn} {rest : List Txn} (h : s.host = t :: rest) :
    step s = transact t (s.issued rest) := by
  unfold step nextTransaction; rw [h]

theorem transact_cmd (w : Word) (s : State) : transact (.wr cmdOffset w) s = runCommand w s := by
  simp only [transact, if_true]

theorem transact_wr {off : Byte} (h : off ≠ cmdOffset) (v : Word) (s : State) :
    transact (.wr off v) s = .next (s.writeReg off v) := by
  simp only [transact, if_neg h]

theorem runCommand_ok {w : Word} {i : Instr} (h : decode w = .ok i) (s : State) : runCommand w s = exec i s := by
  unfold runCommand; rw [h]

theorem runCommand_error {w : Word} {e : DecodeError} (h : decode w = .error e) (s : State) :
    runCommand w s = .next (s.setResult .errOpcode) := by
  unfold runCommand; rw [h]; rfl

/-- The guard and the own rule of each command: `exec` answers the guarded rule, but for a session command whose
sequencing registers are out of range. -/
def commandGuard : Instr → Access
  | .nop | .abort => .always
  | .crcInit | .crcStep _ | .crcBulk _ | .bufSetptr _ | .bufWrite _ | .bufRead | .frmEncode | .frmDecode
  | .txStart | .rxStart => .idleOnly
  | .txByte _ => .txOnly
  | .rxByte _ | .rxEnd => .rxOnly

/-- The own rule of each command. -/
def commandRule : Instr → State → State
  | .nop => nop
  | .crcInit => crcInit
  | .crcStep b => crcStepByte b
  | .crcBulk n => crcBulk n
  | .bufSetptr a => bufSetptr a
  | .bufWrite b => bufWrite b
  | .bufRead => bufRead
  | .frmEncode => frmEncode
  | .frmDecode => frmDecode
  | .txStart => txStart
  | .txByte b => txByte b
  | .rxStart => rxStart
  | .rxByte b => rxByte b
  | .rxEnd => rxEnd
  | .abort => abort

/-- A command ends in a fault, or in its guarded own rule. -/
theorem exec_cases (i : Instr) (s : State) :
    ((∃ b, i = .txByte b) ∧ s.mode = .tx ∧ s.encodeSessionInRange = false ∧
        exec i s = .fault .encodeSessionOutOfRange) ∨
      ((∃ b, i = .rxByte b) ∧ s.mode = .rx ∧ s.decodeSessionInRange = false ∧
        exec i s = .fault .decodeSessionOutOfRange) ∨
      ((∀ b, i = .txByte b → s.mode = .tx → s.encodeSessionInRange = true) ∧
        (∀ b, i = .rxByte b → s.mode = .rx → s.decodeSessionInRange = true) ∧
        exec i s = .next (s.accepted (commandGuard i) (commandRule i))) := by
  cases i with
  | txByte b =>
    by_cases h : s.mode = .tx ∧ s.encodeSessionInRange = false
    · exact .inl ⟨⟨b, rfl⟩, h.1, h.2, by simp [exec, execTxByte, h.1, h.2]⟩
    · refine .inr (.inr ⟨fun _ _ hm => by simpa [hm] using h, by simp, ?_⟩)
      have hc : (s.mode == .tx && !s.encodeSessionInRange) = false := by
        cases hm : s.mode <;> simp_all
      simp [exec, execTxByte, hc, commandGuard, commandRule]
  | rxByte b =>
    by_cases h : s.mode = .rx ∧ s.decodeSessionInRange = false
    · exact .inr (.inl ⟨⟨b, rfl⟩, h.1, h.2, by simp [exec, execRxByte, h.1, h.2]⟩)
    · refine .inr (.inr ⟨by simp, fun _ _ hm => by simpa [hm] using h, ?_⟩)
      have hc : (s.mode == .rx && !s.decodeSessionInRange) = false := by
        cases hm : s.mode <;> simp_all
      simp [exec, execRxByte, hc, commandGuard, commandRule]
  | _ => exact .inr (.inr ⟨by simp, by simp, rfl⟩)

/-- A command that completes ran its own rule in an accepting mode, or only reported the mode's error. -/
theorem exec_next_cases {i : Instr} {s t : State} (h : exec i s = .next t) :
    ((commandGuard i).error? s.mode = none ∧ t = (commandRule i) s) ∨
      ∃ r, (commandGuard i).error? s.mode = some r ∧ t = s.setResult r := by
  rcases exec_cases i s with ⟨_, _, _, e⟩ | ⟨_, _, _, e⟩ | ⟨_, _, e⟩
  · rw [e] at h; simp at h
  · rw [e] at h; simp at h
  · rw [e] at h
    cases h
    exact s.accepted_cases (commandGuard i) (commandRule i)

/-- The ways a step can answer a next state. -/
theorem step_next_cases {s t : State} (h : step s = .next t) :
    (s.host = [] ∧ t = s) ∨
      ∃ rest, (s.host = .reset :: rest ∧ t = (s.issued rest).platformReset) ∨
        (∃ off, s.host = .rd off :: rest ∧ t = (s.issued rest).readTransaction off) ∨
        (∃ off v, s.host = .wr off v :: rest ∧ off ≠ cmdOffset ∧ t = (s.issued rest).writeReg off v) ∨
        (∃ w e, s.host = .wr cmdOffset w :: rest ∧ decode w = .error e ∧ t = (s.issued rest).setResult .errOpcode) ∨
        ∃ w i, s.host = .wr cmdOffset w :: rest ∧ decode w = .ok i ∧ exec i (s.issued rest) = .next t := by
  cases hh : s.host with
  | nil => rw [step_of_idle_host hh] at h; cases h; exact .inl ⟨rfl, rfl⟩
  | cons x rest =>
    right
    refine ⟨rest, ?_⟩
    rw [step_of_host hh] at h
    cases x with
    | reset => left; cases h; exact ⟨rfl, rfl⟩
    | rd off => right; left; cases h; exact ⟨off, rfl, rfl⟩
    | wr off v =>
      by_cases ho : off = cmdOffset
      · subst ho
        rw [transact_cmd] at h
        cases hd : decode v with
        | error e =>
          rw [runCommand_error hd] at h; cases h
          exact .inr (.inr (.inr (.inl ⟨v, e, rfl, hd, rfl⟩)))
        | ok i =>
          rw [runCommand_ok hd] at h
          exact .inr (.inr (.inr (.inr ⟨v, i, rfl, hd, h⟩)))
      · rw [transact_wr ho] at h; cases h
        exact .inr (.inr (.inl ⟨off, v, rfl, ho, rfl⟩))

/-- A run of no step. -/
theorem run_zero (s : State) : Sys2Proof.core.run 0 s = .next s := Host.Core.run.eq_1 Sys2Proof.core s

/-- A run whose first step completes. -/
theorem run_succ {s t : State} (n : Nat) (h : step s = .next t) :
    Sys2Proof.core.run (n + 1) s = Sys2Proof.core.run n t := by
  refine (Host.Core.run.eq_2 Sys2Proof.core s n).trans ?_
  have h' : Sys2Proof.core.step s = .next t := h
  simp only [h']

/-- A run may be cut in two. -/
theorem run_add {s t : State} (m n : Nat) (h : Sys2Proof.core.run m s = .next t) :
    Sys2Proof.core.run (m + n) s = Sys2Proof.core.run n t := by
  induction m generalizing s with
  | zero => rw [run_zero] at h; cases h; rw [Nat.zero_add]
  | succ m ih =>
    cases hs : step s with
    | next u => rw [run_succ m hs] at h; rw [Nat.succ_add, run_succ (m + n) hs]; exact ih h
    | fault f =>
      have h' : Sys2Proof.core.step s = .fault f := hs
      have h := (Host.Core.run.eq_2 Sys2Proof.core s m).symm.trans h
      simp [h'] at h
    | refused r =>
      have h' : Sys2Proof.core.step s = .refused r := hs
      have h := (Host.Core.run.eq_2 Sys2Proof.core s m).symm.trans h
      simp [h'] at h

/-- A register write other than CMD is rejected, or writes one register's fields. -/
theorem writeReg_cases (s : State) (off : Byte) (v : Word) :
    (writableOffset off = false ∧ s.writeReg off v = s.setResult .errAccess) ∨
      (writableOffset off = true ∧ s.mode ≠ .idle ∧ s.writeReg off v = s.setResult .errBusy) ∨
      (writableOffset off = true ∧ s.mode = .idle ∧ s.writeReg off v = s.storeReg off v) := by
  unfold State.writeReg
  cases hw : writableOffset off with
  | false => exact .inl ⟨rfl, rfl⟩
  | true =>
    right
    by_cases hm : s.mode = .idle
    · right; exact ⟨rfl, hm, by simp [hm]⟩
    · left; exact ⟨rfl, hm, by simp [hm]⟩

/-- The six accepted register writes. -/
theorem storeReg_cases (s : State) (off : Byte) (v : Word) :
    (off = 0x08 ∧ s.storeReg off v = { s with
        frameSize := lowHalf v, allowSkip := v.getLsbD 16, seqMode := SeqMode.ofBit (v.getLsbD 17) }) ∨
      (off = 0x0C ∧ s.storeReg off v = { s with crc := lowHalf v }) ∨
      (off = 0x10 ∧ s.storeReg off v = { s with bptr := lowHalf v }) ∨
      (off = 0x18 ∧ s.storeReg off v = { s with txIndex := lowHalf v }) ∨
      (off = 0x1C ∧ s.storeReg off v = { s with txLength := lowHalf v }) ∨
      (off = 0x20 ∧ s.storeReg off v = { s with txTotal := v }) ∨
      (writableOffset off = false ∧ s.storeReg off v = s) := by
  by_cases h1 : off = 0x08
  · subst h1; exact .inl ⟨rfl, rfl⟩
  by_cases h2 : off = 0x0C
  · subst h2; exact .inr (.inl ⟨rfl, rfl⟩)
  by_cases h3 : off = 0x10
  · subst h3; exact .inr (.inr (.inl ⟨rfl, rfl⟩))
  by_cases h4 : off = 0x18
  · subst h4; exact .inr (.inr (.inr (.inl ⟨rfl, rfl⟩)))
  by_cases h5 : off = 0x1C
  · subst h5; exact .inr (.inr (.inr (.inr (.inl ⟨rfl, rfl⟩))))
  by_cases h6 : off = 0x20
  · subst h6; exact .inr (.inr (.inr (.inr (.inr (.inl ⟨rfl, rfl⟩)))))
  · refine .inr (.inr (.inr (.inr (.inr (.inr ⟨?_, ?_⟩)))))
    · simp only [writableOffset, Bool.or_eq_false_iff, beq_eq_false_iff_ne]
      exact ⟨⟨⟨⟨⟨h1, h2⟩, h3⟩, h4⟩, h5⟩, h6⟩
    · unfold State.storeReg
      split <;> first
        | rfl
        | (rename_i h
           exfalso
           first
             | exact h1 (BitVec.eq_of_toNat_eq h)
             | exact h2 (BitVec.eq_of_toNat_eq h)
             | exact h3 (BitVec.eq_of_toNat_eq h)
             | exact h4 (BitVec.eq_of_toNat_eq h)
             | exact h5 (BitVec.eq_of_toNat_eq h)
             | exact h6 (BitVec.eq_of_toNat_eq h))

end Sys2Proof.Machine
end

