-- ==== Sys2Proof/Tests/Slice0.lean ====
section
/-! SUPPORT. The model's own tests. The expected values are the spec's: the words of 30_encoding.md, the vectors of
95_test_vectors.md, and the boundary values the rules name. No test rests on a free draw: the states below hold
bytes in place of draws. -/

namespace Sys2Proof.Tests

open Sys2Proof Sys2Proof.Machine

-- One theorem after the other: kernel evaluations that wait for each other hold a thread and its stack each.
set_option Elab.async false

/-! ## Small states -/

/-- Reset under the default profile with FBUF_SIZE = 1024, the vectors' conventions (95_test_vectors.md). -/
def base : State := { State.reset with params := Config.defaultProfile, draw := List.replicate 1024 0x5A }

/-- FRAME_SIZE = 8, so P = 2, as in 95_test_vectors.md 2.5 and 2.6. -/
def base8 : State := { base with frameSize := 8 }

/-- An encode session of 5 bytes at P = 2, right after its TX_START (R80's example). -/
def tx8 : State := { base8 with mode := .tx, txTotal := 5, txRemain := 5 }

/-- A decode session at P = 2, strict and ADVANCE, right after its RX_START (R89's example). -/
def rx8 : State := { base8 with mode := .rx, seqMode := .advance }

/-- The frame buffer holding the given bytes from index `i` on. -/
def holding (s : State) (i : Nat) (bs : List Byte) : State := s.setBytes i bs

/-- The state a command or a step ends in, if it ends in one. -/
def next? : Host.Outcome State Fault Refusal → Option State
  | .next t => some t
  | .fault _ => none
  | .refused _ => none

/-- The end state with everything the host side adds taken as given. -/
def ends (o : Host.Outcome State Fault Refusal) (p : State → Bool) : Bool := (next? o).any p

/-- A stop's reason. -/
def fault? : Host.Outcome State Fault Refusal → Option Fault
  | .fault f => some f
  | .next _ => none
  | .refused _ => none

/-- Frame 0 of "HELLO" at P = 2, default profile (95_test_vectors.md 2.4). -/
def frame0 : List Byte := [0x00, 0x00, 0x02, 0x00, 0x48, 0x45, 0x7C, 0x7F]

/-- The frame of the source's example "ABCDEFGHIJ" at FRAME_SIZE = 16, default profile (R76's example). -/
def frameAJ : List Byte :=
  [0x00, 0x00, 0x0A, 0x00, 0x41, 0x42, 0x43, 0x44, 0x45, 0x46, 0x47, 0x48, 0x49, 0x4A, 0xDD, 0x32]

/-! ## Well-formedness: an ill-formed term for each check -/

theorem test_illformed_reserved_opcode : wordWellFormed 0x00000001 = false := by decide
theorem test_illformed_reserved_opcode_top : wordWellFormed 0x000000FF = false := by decide
theorem test_illformed_n_with_b : wordWellFormed 0x0000FF00 = false := by decide
theorem test_illformed_n_with_h : wordWellFormed 0x00010010 = false := by decide
theorem test_illformed_b_with_h : wordWellFormed 0x00010011 = false := by decide
theorem test_illformed_h_with_b : wordWellFormed 0x00000112 = false := by decide
theorem test_illformed_line_n_operand : (AsmLine.command .nop (some 0)).wellFormed = false := by decide
theorem test_illformed_line_b_range : (AsmLine.command .crcStep (some 256)).wellFormed = false := by decide
theorem test_illformed_line_b_missing : (AsmLine.command .txByte none).wellFormed = false := by decide
theorem test_illformed_line_h_range : (AsmLine.command .crcBulk (some 65536)).wellFormed = false := by decide
theorem test_illformed_line_h_missing : (AsmLine.command .bufSetptr none).wellFormed = false := by decide
theorem test_illformed_line_write_range : (AsmLine.write .crc 4294967296).wellFormed = false := by decide
theorem test_wellformed_line_bounds :
    (AsmLine.command .crcStep (some 255)).wellFormed && (AsmLine.command .crcBulk (some 65535)).wellFormed &&
      (AsmLine.write .crc 4294967295).wellFormed = true := by decide

/-! ## Decoding: words of 30_encoding.md R52, R54 and 95_test_vectors.md 2.1 and 3 -/

theorem test_decode_nop : decode 0x00000000 = .ok .nop := by rfl
theorem test_decode_crcInit : decode 0x00000010 = .ok .crcInit := by rfl
theorem test_decode_crcStep : decode 0x00004111 = .ok (.crcStep 0x41) := by rfl
theorem test_decode_crcBulk : decode 0x00090012 = .ok (.crcBulk 9) := by rfl
theorem test_decode_bufSetptr : decode 0x07D00020 = .ok (.bufSetptr 2000) := by rfl
theorem test_decode_bufWrite : decode 0x00005521 = .ok (.bufWrite 0x55) := by rfl
theorem test_decode_bufRead : decode 0x00000022 = .ok .bufRead := by rfl
theorem test_decode_frmEncode : decode 0x00000030 = .ok .frmEncode := by rfl
theorem test_decode_frmDecode : decode 0x00000031 = .ok .frmDecode := by rfl
theorem test_decode_txStart : decode 0x00000040 = .ok .txStart := by rfl
theorem test_decode_txByte : decode 0x00004841 = .ok (.txByte 0x48) := by rfl
theorem test_decode_rxStart : decode 0x00000050 = .ok .rxStart := by rfl
theorem test_decode_rxByte : decode 0x0000EE51 = .ok (.rxByte 0xEE) := by rfl
theorem test_decode_rxEnd : decode 0x00000052 = .ok .rxEnd := by rfl
theorem test_decode_abort : decode 0x00000060 = .ok .abort := by rfl
theorem test_decode_reserved : decode 0x00000113 = .error (.reservedOpcode 0x13) := by rfl
theorem test_decode_mustBeZero : decode 0x00FF0041 = .error (.mustBeZero .txByte) := by rfl
theorem test_encode_words :
    encode (.crcStep 0x39) = 0x00003911 ∧ encode (.crcBulk 9) = 0x00090012 ∧ encode (.bufSetptr 14) = 0x000E0020 ∧
      encode (.rxByte 0x7F) = 0x00007F51 := by decide
theorem test_table_word : decodeTableWord 32 0x00004111 = some (.crcStep 0x41) := by rfl
theorem test_table_word_illegal : decodeTableWord 32 0x00000001 = none := by rfl
theorem test_table_word_too_wide : decodeTableWord 40 0x0100000000 = none := by rfl

/-! ## The step -/

/-- A stored word is run by the very next step, and the host is left as it was. -/
theorem test_fetch_word :
    next? (step (base.withFetchWord 32 0x00004111)) = some { base with crc := 0xB915 } := by decide +kernel

theorem test_line_is_its_word : assemble (.command .bufWrite (some 0x41)) = some (.wr 0x00 0x00004121) := by
  decide

theorem test_cfg_pseudo : cfg 16 true true = .wr 0x08 0x00030010 := by decide

/-- The low byte of CONFIG's word lies at the lowest bus address (R40). -/
theorem test_register_lane : registerLane 0x5D9832DD 0 = 0xDD ∧ registerLane 0x5D9832DD 3 = 0x5D := by decide

/-! ## The CRC engine (95_test_vectors.md 2.2) -/

theorem test_crcStep_default :
    crcStep Config.defaultProfile 0x0000 0x01 = 0x1021 ∧ crcStep Config.defaultProfile 0x0000 0x80 = 0x9188 ∧
      crcStep Config.defaultProfile 0x1234 0x56 = 0x3C40 := by decide
theorem test_crcStep_alternate :
    crcStep Config.alternateProfile 0x0000 0x01 = 0xC0C1 ∧ crcStep Config.alternateProfile 0x0000 0x80 = 0xA001 ∧
      crcStep Config.alternateProfile 0x1234 0x56 = 0xE993 := by decide
theorem test_check_values :
    crcCompute Config.defaultProfile (asciiBytes "123456789") = 0x29B1 ∧
      crcCompute Config.alternateProfile (asciiBytes "123456789") = 0x4B37 := by decide +kernel

theorem test_crcInit : next? (exec .crcInit { base with crc := 0x1234 }) = some base := by decide +kernel
theorem test_crcInit_busy : next? (exec .crcInit rx8) = some { rx8 with result := .errBusy } := by decide +kernel
theorem test_crcStep : next? (exec (.crcStep 0x00) base) = some { base with crc := 0xE1F0 } := by decide +kernel
theorem test_crcBulk :
    ends (exec (.crcBulk 9) (holding base 0 (asciiBytes "123456789"))) (fun t => t.crc == 0x29B1 && t.bptr == 0)
      = true := by decide +kernel
theorem test_crcBulk_range :
    next? (exec (.crcBulk 5) { base with bptr := 1020 }) = some { base with bptr := 1020, result := .errRange } := by
  decide +kernel

/-! ## The frame buffer (95_test_vectors.md 2.3) -/

theorem test_bufSetptr : next? (exec (.bufSetptr 2000) base) = some { base with bptr := 2000 } := by decide +kernel
theorem test_bufWrite_last :
    ends (exec (.bufWrite 0x55) { base with bptr := 1023 }) (fun t => t.bptr == 1024 && t.byteAt 1023 == 0x55)
      = true := by decide +kernel
theorem test_bufWrite_range :
    next? (exec (.bufWrite 0x55) { base with bptr := 1024 }) = some { base with bptr := 1024, result := .errRange } := by
  decide +kernel
theorem test_bufRead :
    ends (exec .bufRead { holding base 5 [0x42] with bptr := 5 }) (fun t => t.bufData == 0x42 && t.bptr == 6) = true := by
  decide +kernel
/-- Writing the draw itself lists nothing: equal buffers are equal data. -/
theorem test_write_back_draw : Memory.write [0x11, 0x22] [(1, 0x33)] 1 0x22 = [] := by decide

/-! ## The frame codec (95_test_vectors.md 2.4) -/

theorem test_encode_padding :
    frameEncode Config.defaultProfile 0x0102 3 10 (asciiBytes "XYZ") =
      [0x02, 0x01, 0x03, 0x00, 0x58, 0x59, 0x5A, 0x00, 0x00, 0x00, 0x00, 0x00, 0x00, 0x00, 0x70, 0x27] := by
  decide +kernel
theorem test_frmEncode :
    ends (exec .frmEncode (holding { base with frameSize := 16, txLength := 10 } 4 (asciiBytes "ABCDEFGHIJ")))
      (fun t => t.bytesFrom 0 16 == frameAJ && t.crc == 0x32DD && t.byteAt 16 == 0x5A && t.bptr == 0) = true := by
  decide +kernel
theorem test_frmEncode_length :
    next? (exec .frmEncode { base with frameSize := 16, txLength := 11 }) =
      some { base with frameSize := 16, txLength := 11, result := .errLength } := by decide +kernel
theorem test_frmDecode_lenOver :
    ends (exec .frmDecode (holding base8 0 [0x03, 0x00, 0x05, 0x00, 0x41, 0x42, 0xCE, 0x2A]))
      (fun t => t.statusWord == 0x40 && t.rxIndex == 3 && t.rxLength == 5 && t.crc == 0x2ACE) = true := by decide +kernel
theorem test_frmDecode_mismatch :
    ends (exec .frmDecode { holding { base with frameSize := 16 } 0 (frameAJ.set 4 0x40) with rxLength := 10 })
      (fun t => t.result == .crcMismatch && t.rxCrcWord == 0x5D9832DD && t.rxLength == 10) = true := by decide +kernel

/-! ## The splitter (95_test_vectors.md 2.5) -/

theorem test_txStart_capacity :
    next? (exec .txStart { base with frameSize := 7, txTotal := 65537 }) =
      some { base with frameSize := 7, txTotal := 65537, result := .errCapacity } := by decide +kernel
theorem test_txStart_most_frames :
    next? (exec .txStart { base with frameSize := 7, txTotal := 65536 }) =
      some { base with frameSize := 7, txTotal := 65536, txRemain := 65536, mode := .tx } := by decide +kernel
/-- 'E' completes frame 0 of "HELLO". -/
theorem test_txByte_frame :
    ends (exec (.txByte 0x45) (holding { tx8 with fcount := 1, txRemain := 4 } 4 [0x48]))
      (fun t => t.out == frame0.map Item.data ++ [.event (.txFrame 0 2)] && t.txIndex == 1 && t.fcount == 0
        && t.txRemain == 3 && t.mode == .tx) = true := by decide +kernel
/-- 'O' is the last byte: frame 2 is padded over what an earlier frame left, and the session ends. -/
theorem test_txByte_last :
    ends (exec (.txByte 0x4F) (holding { tx8 with txIndex := 2, txRemain := 1 } 4 [0x4C, 0x4C]))
      (fun t => t.out == ([0x02, 0x00, 0x01, 0x00, 0x4F, 0x00, 0x16, 0xEE] : List Byte).map Item.data
          ++ [.event (.txFrame 2 1), .event (.txDone 3)]
        && t.mode == .idle && t.txIndex == 3 && t.crc == 0xEE16) = true := by decide +kernel

/-! ## The reassembler (95_test_vectors.md 2.6) -/

theorem test_rxStart :
    next? (exec .rxStart { base8 with expected := 7 }) = some { base8 with expected := 0, mode := .rx } := by
  decide +kernel
/-- The last byte of frame 0 admits it. -/
theorem test_rxByte_accept :
    ends (exec (.rxByte 0x7F) (holding { rx8 with fcount := 7 } 0 (frame0.take 7)))
      (fun t => t.out == [.data 0x48, .data 0x45, .event (.rxAccept 0 2)] && t.expected == 1
        && t.phase == .separator && t.fcount == 0) = true := by decide +kernel
/-- Case E: a frame with one bit of its payload flipped. -/
theorem test_rxByte_crc_fail :
    ends (exec (.rxByte 0x67) (holding { rx8 with fcount := 7, expected := 1 } 0 [1, 0, 2, 0, 0x4D, 0x4C, 0x31]))
      (fun t => t.out == [.event (.rxCrcFail 1 0x6731 0x5400)] && t.expected == 1 && t.result == .ok) = true := by
  decide +kernel
theorem test_rxEnd :
    ends (exec .rxEnd { rx8 with fcount := 3 })
      (fun t => t.out == [.event (.rxEnd 3)] && t.mode == .idle && t.fcount == 0) = true := by decide +kernel
theorem test_rxEnd_separator :
    ends (exec .rxEnd { rx8 with phase := .separator }) (fun t => t.out == [.event (.rxEnd 0)] && t.phase == .frame)
      = true := by decide +kernel

/-! ## Control and registers (95_test_vectors.md 2.7) -/

theorem test_nop : next? (exec .nop { base with result := .errRange }) = some base := by decide +kernel
theorem test_abort :
    next? (exec .abort { tx8 with fcount := 1, txRemain := 4 }) = some { tx8 with txRemain := 4, mode := .idle } := by
  decide +kernel
theorem test_read_reset :
    base.readReg 0x04 = 0x00000000 ∧ base.readReg 0x08 = 0x00000400 ∧ base.readReg 0x0C = 0x0000FFFF ∧
      base.readReg 0x40 = 0 ∧ base.readReg 0x09 = 0 := by decide +kernel
theorem test_write_config :
    (base.writeReg 0x08 0xFFFFFFFF).configWord = 0x0003FFFF ∧
      base.writeReg 0x08 0x00030010 = { base with frameSize := 16, allowSkip := true, seqMode := .advance } := by
  decide +kernel
theorem test_access_before_busy :
    rx8.writeReg 0x04 16 = { rx8 with result := .errAccess } ∧ rx8.writeReg 0x08 16 = { rx8 with result := .errBusy } := by
  decide +kernel

/-! ## Witnesses: states and operands that meet the hypotheses of the statements, clause by clause

Each theorem is named after its statement (Certificates/Slice0/Obligations.lean). A clause with a bound has a witness
on each side of it. -/

theorem witness_DecodeAcceptsExactlyTheOpcodeMap :
    (0x00000012, 0x0000FFFF) ∈ opcodeRows ∧ (0xFFFF0012 : Word) &&& 0x0000FFFF = 0x00000012 := by decide
theorem witness_EncodeUndoesDecode : decode 0xFFFF0012 = .ok (.crcBulk 0xFFFF) ∧ decode 0x0000FF21 = .ok (.bufWrite 0xFF) :=
  ⟨rfl, rfl⟩

theorem witness_IllegalWordSetsErrOpcodeOnly :
    IllegalWord 0x01 ∧ IllegalWord 0x0F ∧ IllegalWord 0x13 ∧ IllegalWord 0x32 ∧ IllegalWord 0x61 ∧ IllegalWord 0xFF ∧
      IllegalWord 0x00010010 ∧ IllegalWord 0x00000112 ∧ IllegalWord 0x80000021 ∧
      ({ tx8 with host := [.wr 0x00 0x0F] } : State).host = .wr 0x00 0x0F :: [] :=
  ⟨.inl (by decide), .inl (by decide), .inl (by decide), .inl (by decide), .inl (by decide), .inl (by decide),
    .inr ⟨(0x10, 0xFFFFFFFF), by decide, by decide, by decide⟩, .inr ⟨(0x12, 0x0000FFFF), by decide, by decide, by decide⟩,
    .inr ⟨(0x21, 0xFFFF00FF), by decide, by decide, by decide⟩, rfl⟩

/-- Words that meet the hypotheses of `IllegalFormsRefused`, one for each row of the opcode map. -/
theorem witness_IllegalFormsRefused :
    (opcodeRows.all fun r =>
      let w : Word := r.1 ||| (if r.2 == 0x0000FFFF then 0x0000FF00 else 0xFFFF0000)
      w &&& 0xFF == r.1 && w &&& r.2 != r.1) = true := by decide

theorem witness_AssembledCommandIsItsWord :
    assemble (.command .abort none) = some (.wr 0x00 0x60) ∧ assemble (.command .abort (some 0)) = none ∧
      assemble (.command .rxByte (some 255)) = some (.wr 0x00 0xFF51) ∧ assemble (.command .rxByte (some 256)) = none ∧
      assemble (.command .crcBulk (some 65535)) = some (.wr 0x00 0xFFFF0012) ∧
      assemble (.command .crcBulk (some 65536)) = none := by decide

theorem witness_StepRunsTheDecodedCommand :
    ({ rx8 with host := [.wr 0x00 0x52, .rd 0x04] } : State).host = .wr 0x00 0x52 :: [.rd 0x04] ∧
      decode 0x52 = .ok .rxEnd := ⟨rfl, rfl⟩

theorem witness_SilentHostHoldsTheState : base.host = [] := rfl

/-- Every offset the clauses of a read name: the first and last of the window, the unaligned and the reserved ones. -/
theorem witness_RegisterReadReturnsTheFields :
    ∀ off ∈ ([0x00, 0x04, 0x08, 0x0C, 0x10, 0x14, 0x18, 0x1C, 0x20, 0x24, 0x28, 0x2C, 0x30, 0x34, 0x38] : List Byte),
      ¬(off.toNat % 4 ≠ 0 ∨ 0x38 < off.toNat) ∧
        ({ base with host := [.rd off] } : State).host = .rd off :: [] := by decide
theorem witness_RegisterReadReturnsTheFields_unmapped :
    ∀ off ∈ ([0x01, 0x3B, 0x3C, 0xFC, 0xFF] : List Byte), off.toNat % 4 ≠ 0 ∨ 0x38 < off.toNat := by decide

/-- The four clauses of a write: CMD; the offsets refused; the RW offsets in a session; and in IDLE. -/
theorem witness_RegisterWriteFollowsTheAccessRights :
    (∀ off ∈ ([0x01, 0x04, 0x14, 0x24, 0x38, 0x3C, 0xFC, 0xFF] : List Byte),
        off ≠ 0x00 ∧ off ∉ ([0x08, 0x0C, 0x10, 0x18, 0x1C, 0x20] : List Byte)) ∧
      rx8.mode ≠ .idle ∧ base.mode = .idle ∧
      ({ rx8 with host := [.wr 0x08 16] } : State).host = .wr 0x08 16 :: [] ∧
      ({ base with host := [.wr 0x20 0xFFFFFFFF] } : State).host = .wr 0x20 0xFFFFFFFF :: [] := by
  refine ⟨by decide, by decide, rfl, rfl, rfl⟩

theorem witness_WrittenRegisterReadsBackItsFields :
    base.mode = .idle ∧
      ({ base with host := [.wr 0x08 0xFFFFFFFF, .rd 0x08] } : State).host = .wr 0x08 0xFFFFFFFF :: .rd 0x08 :: [] :=
  ⟨rfl, rfl⟩

theorem witness_ResetDrawsTheFrameBufferAnew : 1023 < State.reset.params.fbufSize :=
  show 1023 < 1024 + Config.fbufExtra.val by omega

theorem witness_ResetSetsTheTablesValues :
    ({ tx8 with host := [.reset, .rd 0x08] } : State).host = .reset :: [.rd 0x08] := rfl

/-- Legal states of each mode, and a legal state whose buffer lists a cell. -/
theorem witness_legal_states :
    ([base, tx8, rx8, holding { tx8 with fcount := 1, txRemain := 4 } 4 [0x48], { rx8 with phase := .separator }].all
      fun s => decide s.Inv) = true := by decide +kernel

theorem witness_StepKeepsTheInvariant :
    (next? (step { tx8 with host := [issue (.txByte 0x48)] })).isSome = true ∧
      ({ tx8 with host := [issue (.txByte 0x48)] } : State).Inv := by decide +kernel

theorem witness_LegalStatesNeverStop : decide tx8.Inv && decide rx8.Inv = true := by decide +kernel

theorem witness_EachTransactionIsOneUntimedStep :
    ([[issue (.txByte 0x48), .rd 0x04], [issue (.txByte 0x48), .rd 0x04, .reset]].all fun xs =>
      decide { tx8 with host := xs }.Inv && xs == [issue (.txByte 0x48), .rd 0x04] ++ xs.drop 2) = true := by
  decide +kernel

/-- Out of each bound of a session, one at a time: the states in which TX_BYTE and RX_BYTE stop. -/
theorem witness_CommandsStopOnlyOutsideSessionRanges :
    (∀ s ∈ [{ tx8 with frameSize := 6 }, { tx8 with frameSize := 1025 }, { tx8 with fcount := 2 }, { tx8 with txRemain := 0 }],
        fault? (exec (.txByte 0x48) s) = some .encodeSessionOutOfRange) ∧
      (∀ s ∈ [{ rx8 with frameSize := 6 }, { rx8 with frameSize := 1025 }, { rx8 with fcount := 8 }],
        fault? (exec (.rxByte 0x48) s) = some .decodeSessionOutOfRange) := by decide +kernel

theorem witness_ModeAcceptanceTable :
    (Instr.crcBulk 0).op ∈ [Op.crcInit, .crcStep, .crcBulk, .bufSetptr, .bufWrite, .bufRead, .frmEncode, .frmDecode,
        .txStart, .rxStart] ∧ tx8.mode = .tx ∧ rx8.mode = .rx ∧ base.mode = .idle ∧
      (∀ i ∈ [Instr.nop, .abort], ∀ s ∈ [base, tx8, rx8], ends (exec i s) (fun t => t.result == .ok) = true) ∧
      ends (exec (.txByte 0) tx8) (fun t => t.result == .ok) = true ∧
      ends (exec (.rxByte 0) rx8) (fun t => t.result == .ok) = true ∧
      ends (exec .rxStart base) (fun t => t.result == .ok) = true := by decide +kernel

/-- An error of a command, an error and an accepted write of a register, and the outcome CRC_MISMATCH. -/
theorem witness_ErrorsArePrecise :
    ends (runCommand 0x00000022 { base with bptr := 1024 }) (fun t => decide (2 ≤ t.result.code.toNat)) = true ∧
      ends (step { base with host := [.wr 0x04 0] }) (fun t => t.result == .errAccess) = true ∧
      ends (step { base with host := [.wr 0x0C 0], result := .errRange }) (fun t => t.result == .errRange) = true ∧
      ends (exec .frmDecode base8) (fun t => t.result == .crcMismatch) = true := by decide +kernel

/-- Each result code is set by some command. -/
theorem witness_ResultCodesComeFromTheirCommands :
    ends (runCommand 0x00000001 base) (fun t => t.result == .errOpcode) = true ∧
      ends (runCommand 0x00004141 base) (fun t => t.result == .errState) = true ∧
      ends (runCommand 0x00000040 tx8) (fun t => t.result == .errBusy) = true ∧
      ends (runCommand 0x00000050 { base with frameSize := 6 }) (fun t => t.result == .errConfig) = true ∧
      ends (runCommand 0x00000012 { base with bptr := 1025 }) (fun t => t.result == .errRange) = true ∧
      ends (runCommand 0x00000012 { base with bptr := 1024 }) (fun t => t.result == .ok) = true ∧
      ends (runCommand 0x00000030 { base8 with txLength := 3 }) (fun t => t.result == .errLength) = true ∧
      ends (runCommand 0x00000040 { base8 with txTotal := 131073 }) (fun t => t.result == .errCapacity) = true := by
  decide +kernel

/-- The ways CRC changes, and MODE changes, and the decode registers do. -/
theorem witness_OnlyCrcUsersWriteCrc :
    ends (exec (.crcStep 1) base) (fun t => t.crc != base.crc) = true ∧
      ends (exec (.txByte 0x45) { tx8 with fcount := 1, txRemain := 4 }) (fun t => t.crc != tx8.crc) = true ∧
      ends (exec (.rxByte 0x45) { rx8 with fcount := 7 }) (fun t => t.crc != rx8.crc) = true := by decide +kernel
theorem witness_OnlySessionCommandsWriteMode :
    ends (step { base8 with host := [issue .rxStart] }) (fun t => t.mode != .idle) = true ∧
      ends (step { tx8 with txRemain := 1, host := [issue (.txByte 9)] }) (fun t => t.mode != .tx) = true ∧
      ends (step { rx8 with host := [.reset] }) (fun t => t.mode != .rx) = true := by decide +kernel
theorem witness_OnlyFrameChecksWriteDecodeRegisters :
    ends (exec .frmDecode (holding base8 0 [0x03, 0x00, 0x05, 0x00, 0x41, 0x42, 0xCE, 0x2A]))
        (fun t => t.rxStored == t.rxCalc && t.rxIndex != base8.rxIndex && t.lenOver) = true ∧
      ends (exec (.rxByte 0x45) { rx8 with fcount := 7 }) (fun t => t.rxStored != t.rxCalc) = true := by decide +kernel
theorem witness_CommandsLeaveConfigurationAndHost :
    ends (exec (.txByte 0x45) { tx8 with fcount := 1, txRemain := 4 }) (fun t => t.out != tx8.out) = true ∧
      ends (exec .rxStart base8) (fun t => t.mode == .rx) = true := by decide +kernel
theorem witness_OnlyAdmittedFramesMoveExpected :
    ends (exec (.rxByte 0x7F) (holding { rx8 with fcount := 7 } 0 (frame0.take 7)))
        (fun t => t.expected != rx8.expected) = true ∧
      ends (exec .rxStart { base8 with expected := 7 }) (fun t => t.expected != 7) = true := by decide +kernel
theorem witness_SessionLocksConfiguration :
    ends (step { rx8 with host := [.wr 0x08 16] }) (fun t => t.frameSize == 8) = true ∧ rx8.mode ≠ .idle := by
  decide +kernel
theorem witness_OutputStreamIsAppendOnly :
    ends (step { rx8 with host := [issue .rxEnd], out := [.data 1] })
      (fun t => t.out == [.data 1, .event (.rxEnd 0)]) = true := by decide +kernel

/-- Each way a command changes a byte of FBUF. -/
theorem witness_CommandsWriteOnlyTheirBytes :
    ends (exec (.bufWrite 1) base) (fun t => t.byteAt 0 != base.byteAt 0) = true ∧
      ends (exec .frmEncode base8) (fun t => t.byteAt 5 != base8.byteAt 5 && t.byteAt 8 == base8.byteAt 8) = true ∧
      ends (exec (.txByte 1) { tx8 with fcount := 1 }) (fun t => t.byteAt 0 != tx8.byteAt 0) = true ∧
      ends (exec (.rxByte 1) rx8) (fun t => t.byteAt 0 != rx8.byteAt 0 && t.byteAt 1 == rx8.byteAt 1) = true := by
  decide +kernel

theorem witness_EqualBuffersAreEqualData :
    Memory.wf [0x11, 0x22] [(0, 0x33), (5, 0x01)] ∧ ¬Memory.wf [0x11, 0x22] [(0, 0x11)] ∧
      ¬Memory.wf [0x11, 0x22] [(5, 0x01), (0, 0x33)] := by decide

theorem witness_CrcStepIsDivisionByTheGenerator :
    Config.defaultProfile.crcReflect = false ∧
      ((0xFFFF ^^^ ((0x41 : Byte).setWidth 16 <<< 8) : Half).setWidth 24 : BitVec 24) <<< 8 =
        carrylessMul 0xB5 ((1 : BitVec 24) <<< 16 ||| Config.defaultProfile.crcPoly.setWidth 24) ^^^
          (crcStep Config.defaultProfile 0xFFFF 0x41).setWidth 24 := by decide +kernel

theorem witness_CrcFoldIsLinear : ([0x01, 0x02] : List Byte).length = ([0xFF, 0x80] : List Byte).length := rfl

theorem witness_CrcDetectsChangesInTwoNeighbouringBytes :
    Config.defaultProfile.legal ∧ Config.alternateProfile.legal ∧
      ((0x00, 0x01) : Byte × Byte) ≠ (0x80, 0x00) := by decide

theorem witness_CrcInitSeedsTheEngine : base.mode = .idle ∧ rx8.mode ≠ .idle := by decide
theorem witness_CrcStepFoldsOneByte : base.mode = .idle ∧ tx8.mode ≠ .idle := by decide
theorem witness_BufSetptrStoresThePointer : base.mode = .idle ∧ rx8.mode ≠ .idle := by decide
theorem witness_BufReadLoadsOneByte :
    base.mode = .idle ∧ ({ base with bptr := 1023 } : State).bptr.toNat < base.params.fbufSize ∧
      base.params.fbufSize ≤ ({ base with bptr := 1024 } : State).bptr.toNat ∧ tx8.mode ≠ .idle := by decide +kernel
theorem witness_RxStartOpensTheSession :
    (∀ s ∈ [{ base with frameSize := 6 }, { base with frameSize := 1025 }],
        s.mode = .idle ∧ ¬(7 ≤ s.frameSize.toNat ∧ s.frameSize.toNat ≤ s.params.fbufSize)) ∧
      (∀ s ∈ [{ base with frameSize := 7 }, base],
        s.mode = .idle ∧ 7 ≤ s.frameSize.toNat ∧ s.frameSize.toNat ≤ s.params.fbufSize) ∧ tx8.mode ≠ .idle := by
  decide +kernel
theorem witness_RxEndClosesTheSession : base.mode = .idle ∧ tx8.mode = .tx ∧ rx8.mode = .rx := by decide

/-- CRC_BULK at the end of FBUF: the last range in it, the empty range at the end, the first one past it. -/
theorem witness_CrcBulkChecksumsTheRange :
    base.mode = .idle ∧ (1020 : Half).toNat + (4 : Half).toNat ≤ base.params.fbufSize ∧
      (1024 : Half).toNat + (0 : Half).toNat ≤ base.params.fbufSize ∧
      base.params.fbufSize < (1020 : Half).toNat + (5 : Half).toNat ∧
      base.params.fbufSize < (0xFFFF : Half).toNat + (0 : Half).toNat ∧ tx8.mode ≠ .idle := by decide +kernel

theorem witness_IncrementalAndBulkCrcAgree :
    base.mode = .idle ∧ base.crc = 0xFFFF ∧ 0 < (1024 : Half).toNat ∧
      base.bptr.toNat + (1024 : Half).toNat ≤ base.params.fbufSize := by decide +kernel

/-- BUF_WRITE and BUF_READ on both sides of the end of FBUF. -/
theorem witness_BufWriteStoresOneByte :
    base.mode = .idle ∧ base.params.legal ∧ ({ base with bptr := 1023 } : State).bptr.toNat < base.params.fbufSize ∧
      base.params.fbufSize ≤ ({ base with bptr := 1024 } : State).bptr.toNat ∧ rx8.mode ≠ .idle := by decide +kernel

theorem witness_EncodedFrameHasItsLayout :
    (asciiBytes "HE").length ≤ 2 ∧ (asciiBytes "O").length ≤ 2 ∧ ([] : List Byte).length ≤ 1 := by decide

theorem witness_DecodeInvertsEncodeAndDetectsTampering :
    (2 : Half).toNat ≤ 2 ∧ (asciiBytes "HE").length = (2 : Half).toNat ∧ Config.defaultProfile.legal ∧
      frame0.length = 2 + 6 ∧ frameDecode Config.defaultProfile frame0 2 = .ok 0 2 (asciiBytes "HE") ∧
      5 < 2 + 4 ∧ 7 < 8 := by decide +kernel

/-- FRAME_SIZE on both sides of each bound, and TX_LENGTH on both sides of P. -/
theorem witness_FrmEncodeBuildsTheFrame :
    (∀ s ∈ [{ base with frameSize := 6 }, { base with frameSize := 1025 }],
        s.mode = .idle ∧ ¬(7 ≤ s.frameSize.toNat ∧ s.frameSize.toNat ≤ s.params.fbufSize)) ∧
      (∀ s ∈ [{ base with frameSize := 7, txLength := 1 }, { base with frameSize := 1024, txLength := 1018 }],
        s.mode = .idle ∧ 7 ≤ s.frameSize.toNat ∧ s.frameSize.toNat ≤ s.params.fbufSize ∧
          s.txLength.toNat ≤ s.frameSize.toNat - 6) ∧
      (∀ s ∈ [{ base with frameSize := 7, txLength := 2 }, { base with frameSize := 1024, txLength := 1019 }],
        s.mode = .idle ∧ 7 ≤ s.frameSize.toNat ∧ s.frameSize.toNat ≤ s.params.fbufSize ∧
          s.frameSize.toNat - 6 < s.txLength.toNat) ∧ tx8.mode ≠ .idle := by decide +kernel

/-- Both outcomes of Decode on a buffer. -/
theorem witness_FrmDecodeChecksTheFrame :
    base8.mode = .idle ∧ 7 ≤ base8.frameSize.toNat ∧ base8.frameSize.toNat ≤ base8.params.fbufSize ∧
      ¬(7 ≤ ({ base with frameSize := 6 } : State).frameSize.toNat) ∧ rx8.mode ≠ .idle ∧
      frameDecode base8.params ((holding base8 0 frame0).bytesFrom 0 8) 2 = .ok 0 2 (asciiBytes "HE") ∧
      frameDecode base8.params (base8.bytesFrom 0 8) 2 ≠ .ok 0x5A5A 0x5A5A [0x5A, 0x5A] := by decide +kernel

theorem witness_SplitPartitionsTheStream :
    1 ≤ 2 ∧ (splitFrames Config.defaultProfile (asciiBytes "HELLO") 2).map SplitFrame.length = [2, 2, 1] ∧
      (splitFrames Config.defaultProfile (asciiBytes "ABCD") 2).map SplitFrame.length = [2, 2] ∧
      splitFrames Config.defaultProfile [] 2 = [] := by decide +kernel

/-- TX_START on both sides of 65536 frames at P = 2, and with no bytes. -/
theorem witness_TxStartOpensTheSession :
    (∀ s ∈ [{ base8 with txTotal := 131073 }, { base8 with txTotal := 131072 }, base8],
        s.mode = .idle ∧ 7 ≤ s.frameSize.toNat ∧ s.frameSize.toNat ≤ s.params.fbufSize) ∧
      65536 * (base8.frameSize.toNat - 6) < ({ base8 with txTotal := 131073 } : State).txTotal.toNat ∧
      ({ base8 with txTotal := 131072 } : State).txTotal.toNat ≤ 65536 * (base8.frameSize.toNat - 6) ∧
      base8.txTotal = 0 ∧ ¬(7 ≤ ({ base with frameSize := 6 } : State).frameSize.toNat) ∧ rx8.mode ≠ .idle := by
  decide +kernel

/-- TX_BYTE in a session: a frame that goes on, one that its P-th byte completes, and one that the last byte does. -/
theorem witness_TxByteFeedsTheSplitter :
    tx8.mode = .tx ∧ 7 ≤ tx8.frameSize.toNat ∧ tx8.frameSize.toNat ≤ tx8.params.fbufSize ∧
      tx8.fcount.toNat < tx8.frameSize.toNat - 6 ∧ 0 < tx8.txRemain.toNat ∧
      tx8.fcount.toNat + 1 ≠ tx8.frameSize.toNat - 6 ∧ tx8.txRemain ≠ 1 ∧
      (1 : Half).toNat + 1 = tx8.frameSize.toNat - 6 ∧ base.mode = .idle ∧ rx8.mode = .rx := by decide +kernel

theorem witness_EncodeSessionEmitsTheSplitFrames :
    ({ base8 with txTotal := 5 } : State).mode = .idle ∧ (5 : Word).toNat = (asciiBytes "HELLO").length ∧
      (asciiBytes "HELLO").length ≤ 65536 * (base8.frameSize.toNat - 6) := by decide +kernel

/-- Process on both sides of each of its three checks: checksum, admission, length. -/
theorem witness_ProcessEmitsOneVerdictPerFrame :
    frame0.length = 2 + 6 ∧
      processFrame Config.defaultProfile [0x01, 0x00, 0x02, 0x00, 0x4D, 0x4C, 0x31, 0x67] 1 2 false .pin =
        (1, [.event (.rxCrcFail 1 0x6731 0x5400)]) ∧
      processFrame Config.defaultProfile frame0 1 2 false .pin = (1, [.event (.rxSeqReject 0 1)]) ∧
      processFrame Config.defaultProfile frame0 1 2 true .pin = (1, [.event (.rxSeqReject 0 1)]) ∧
      processFrame Config.defaultProfile [0x03, 0x00, 0x05, 0x00, 0x41, 0x42, 0xCE, 0x2A] 3 2 true .advance =
        (3, [.event (.rxLenReject 3 5)]) ∧
      processFrame Config.defaultProfile frame0 0 2 false .advance =
        (1, [.data 0x48, .data 0x45, .event (.rxAccept 0 2)]) := by decide +kernel

theorem witness_AdmissionAfterAnAdmittedFrame :
    (0xFFFE : Half) ≠ 0xFFFF ∧ admits 0xFFFF (seqUpdate 0xFFFE .advance) true = true ∧
      admits 0 (seqUpdate 0xFFFF .advance) true = true := by decide

/-- RX_BYTE in a session: a separator, a frame that goes on, and one that its last byte completes. -/
theorem witness_RxByteFeedsTheReassembler :
    ({ rx8 with phase := .separator } : State).phase = .separator ∧ rx8.mode = .rx ∧ rx8.phase = .frame ∧
      7 ≤ rx8.frameSize.toNat ∧ rx8.frameSize.toNat ≤ rx8.params.fbufSize ∧
      (6 : Half).toNat + 1 < rx8.frameSize.toNat ∧ (7 : Half).toNat + 1 = rx8.frameSize.toNat := by decide +kernel

theorem witness_DecodeSessionIsReassemble :
    base8.mode = .idle ∧ 7 ≤ base8.frameSize.toNat ∧ base8.frameSize.toNat ≤ base8.params.fbufSize := by decide +kernel

/-- The round trip's hypotheses, on both sides of its clause about PIN. -/
theorem witness_SplitThenReassembleIsTheIdentity :
    1 ≤ 2 ∧ 2 + 6 ≤ 65535 ∧ (asciiBytes "HELLO").length ≤ 65536 * 2 ∧ 2 < (asciiBytes "HELLO").length ∧
      (asciiBytes "HE").length ≤ 2 := by decide

end Sys2Proof.Tests
end

section
/-! The scope's statements (00_scope.md): which states a command can stop in (O18), and which fields no command
writes (O27). -/

namespace Sys2Proof.Machine

/-! ## Where a command stops -/

/-- The ranges of an encode session in numbers (R9, R26, R31). -/
theorem State.encodeSessionInRange_eq_false_iff (s : State) :
    s.encodeSessionInRange = false ↔
      ¬(7 ≤ s.frameSize.toNat ∧ s.frameSize.toNat ≤ s.params.fbufSize ∧ s.fcount.toNat < s.frameSize.toNat - 6 ∧
        0 < s.txRemain.toNat) := by
  rw [← Bool.not_eq_true, s.encodeSessionInRange_iff, s.configValid_iff, s.capacity_eq, and_assoc]

/-- The ranges of a decode session in numbers (R9, R31); a separator needs none of them. -/
theorem State.decodeSessionInRange_eq_false_iff (s : State) :
    s.decodeSessionInRange = false ↔
      s.phase = .frame ∧
        ¬(7 ≤ s.frameSize.toNat ∧ s.frameSize.toNat ≤ s.params.fbufSize ∧ s.fcount.toNat < s.frameSize.toNat) := by
  rw [← Bool.not_eq_true, s.decodeSessionInRange_iff, s.configValid_iff, and_assoc, not_or]
  cases s.phase <;> simp

/-- The faults of a command: each of the two has one command, one mode and one violated range check. -/
theorem exec_eq_fault_iff (i : Instr) (s : State) (f : Fault) :
    exec i s = .fault f ↔
      (f = .encodeSessionOutOfRange ∧ (∃ b, i = .txByte b) ∧ s.mode = .tx ∧ s.encodeSessionInRange = false) ∨
        (f = .decodeSessionOutOfRange ∧ (∃ b, i = .rxByte b) ∧ s.mode = .rx ∧ s.decodeSessionInRange = false) := by
  rcases exec_cases i s with ⟨⟨b, rfl⟩, hm, hr, he⟩ | ⟨⟨b, rfl⟩, hm, hr, he⟩ | ⟨htx, hrx, he⟩
  · simpa [he, hm, hr] using eq_comm
  · simpa [he, hm, hr] using eq_comm
  · rw [he]
    refine iff_of_false (by simp) ?_
    rintro (⟨-, ⟨b, hi⟩, hm, hr⟩ | ⟨-, ⟨b, hi⟩, hm, hr⟩)
    · simp [htx b hi hm] at hr
    · simp [hrx b hi hm] at hr

/-- Every command has a meaning. -/
theorem exec_ne_refused (i : Instr) (s : State) (r : Refusal) : exec i s ≠ .refused r := by
  rcases exec_cases i s with ⟨-, -, -, he⟩ | ⟨-, -, -, he⟩ | ⟨-, -, he⟩ <;> simp [he]

/-- Settles O18: the two range checks of `exec_eq_fault_iff`, read as numbers. -/
theorem commandsStopOnlyOutsideSessionRanges : Obligations.CommandsStopOnlyOutsideSessionRanges := by
  refine ⟨fun b s f => ?_, fun b s f => ?_, fun i s f h => ?_, exec_ne_refused⟩
  · rw [exec_eq_fault_iff, ← s.encodeSessionInRange_eq_false_iff]
    simp
  · rw [exec_eq_fault_iff, ← s.decodeSessionInRange_eq_false_iff]
    simp
  · obtain ⟨-, ⟨b, hi⟩, -⟩ | ⟨-, ⟨b, hi⟩, -⟩ := (exec_eq_fault_iff i s f).mp h
    · exact ⟨b, .inl hi⟩
    · exact ⟨b, .inr hi⟩

/-! ## The fields no command writes -/

/-- CONFIG (R19), TX_TOTAL (R25), the draws (R32), the parameters (R8) and the host's side (R55): the fields that
only a register write, a reset or a transaction's own bookkeeping may change. -/
def State.fixedFields (s : State) :
    Half × Bool × SeqMode × Word × List Byte × Config.Params × Nat × List Txn × List Word :=
  (s.frameSize, s.allowSkip, s.seqMode, s.txTotal, s.draw, s.params, s.resets, s.host, s.reads)

theorem State.fixedFields_eq_iff (s t : State) :
    t.fixedFields = s.fixedFields ↔
      t.frameSize = s.frameSize ∧ t.allowSkip = s.allowSkip ∧ t.seqMode = s.seqMode ∧ t.txTotal = s.txTotal ∧
        t.draw = s.draw ∧ t.params = s.params ∧ t.resets = s.resets ∧ t.host = s.host ∧ t.reads = s.reads := by
  simp only [State.fixedFields, Prod.mk.injEq]

@[simp] theorem State.setResult_fixedFields (s : State) (r : Result) :
    (s.setResult r).fixedFields = s.fixedFields := rfl

/-! The parts of the commands that have lemmas for each field. -/

@[simp] theorem encodeFrame_fixedFields (idx len : Half) (s : State) :
    (encodeFrame idx len s).fixedFields = s.fixedFields := by simp [State.fixedFields]
@[simp] theorem checkFrame_fixedFields (s : State) : (checkFrame s).fixedFields = s.fixedFields := rfl
@[simp] theorem txAccept_fixedFields (b : Byte) (s : State) : (txAccept b s).fixedFields = s.fixedFields := rfl
@[simp] theorem txFrameComplete_fixedFields (s : State) : (txFrameComplete s).fixedFields = s.fixedFields := by
  simp [State.fixedFields]
@[simp] theorem txFinish_fixedFields (s : State) : (txFinish s).fixedFields = s.fixedFields := rfl
@[simp] theorem rxAccept_fixedFields (b : Byte) (s : State) : (rxAccept b s).fixedFields = s.fixedFields := rfl
@[simp] theorem rxToSeparator_fixedFields (s : State) : (rxToSeparator s).fixedFields = s.fixedFields := rfl
@[simp] theorem rxFrameComplete_fixedFields (s : State) : (rxFrameComplete s).fixedFields = s.fixedFields := by
  simp [State.fixedFields]

/-! The commands' own rules that have branches. -/

theorem crcBulk_fixedFields (n : Half) (s : State) : (crcBulk n s).fixedFields = s.fixedFields := by
  unfold crcBulk; split_ifs <;> rfl
theorem bufWrite_fixedFields (b : Byte) (s : State) : (bufWrite b s).fixedFields = s.fixedFields := by
  unfold bufWrite; split_ifs <;> rfl
theorem bufRead_fixedFields (s : State) : (bufRead s).fixedFields = s.fixedFields := by
  unfold bufRead; split_ifs <;> rfl
theorem frmEncode_fixedFields (s : State) : (frmEncode s).fixedFields = s.fixedFields := by
  unfold frmEncode; split_ifs <;> simp
theorem frmDecode_fixedFields (s : State) : (frmDecode s).fixedFields = s.fixedFields := by
  unfold frmDecode; split_ifs <;> simp
theorem txStart_fixedFields (s : State) : (txStart s).fixedFields = s.fixedFields := by
  unfold txStart; split_ifs <;> rfl
theorem rxStart_fixedFields (s : State) : (rxStart s).fixedFields = s.fixedFields := by
  unfold rxStart; split_ifs <;> rfl

theorem txByte_fixedFields (b : Byte) (s : State) : (txByte b s).fixedFields = s.fixedFields := by
  obtain ⟨-, h⟩ | ⟨-, h⟩ | ⟨-, h⟩ := txByte_cases b s <;> simp [h]

theorem rxByte_fixedFields (b : Byte) (s : State) : (rxByte b s).fixedFields = s.fixedFields := by
  obtain ⟨-, h⟩ | ⟨-, h⟩ | ⟨-, h⟩ := rxByte_cases b s
  · rw [h]; rfl
  · simp [h]
  · simp [h]

/-- No command's own rule writes a fixed field. -/
theorem commandRule_fixedFields (i : Instr) (s : State) : (commandRule i s).fixedFields = s.fixedFields := by
  cases i with
  | crcBulk n => exact crcBulk_fixedFields n s
  | bufWrite b => exact bufWrite_fixedFields b s
  | bufRead => exact bufRead_fixedFields s
  | frmEncode => exact frmEncode_fixedFields s
  | frmDecode => exact frmDecode_fixedFields s
  | txStart => exact txStart_fixedFields s
  | txByte b => exact txByte_fixedFields b s
  | rxStart => exact rxStart_fixedFields s
  | rxByte b => exact rxByte_fixedFields b s
  | nop | crcInit | crcStep _ | bufSetptr _ | rxEnd | abort => rfl

/-- A command that completes leaves the fixed fields, whether it ran its rule or reported the mode's error. -/
theorem exec_fixedFields {i : Instr} {s t : State} (h : exec i s = .next t) : t.fixedFields = s.fixedFields := by
  obtain ⟨-, rfl⟩ | ⟨r, -, rfl⟩ := exec_next_cases h
  · exact commandRule_fixedFields i s
  · exact s.setResult_fixedFields r

/-- Settles O27: the frame fact of every command's own rule, field by field. -/
theorem commandsLeaveConfigurationAndHost : Obligations.CommandsLeaveConfigurationAndHost :=
  fun _ s t h => (s.fixedFields_eq_iff t).mp (exec_fixedFields h)

end Sys2Proof.Machine
end

section
/-! What a command may write, once for every command (10_state.md R13): the branches of the commands' own rules, and
from them the table of the registers each command may change. -/

namespace Sys2Proof.Machine

/-! ## The mode an accepted command ran in (R99) -/

@[simp] theorem error?_idleOnly_eq_none_iff {m : Mode} : Access.idleOnly.error? m = none ↔ m = .idle := by
  cases m <;> decide
@[simp] theorem error?_txOnly_eq_none_iff {m : Mode} : Access.txOnly.error? m = none ↔ m = .tx := by
  cases m <;> decide
@[simp] theorem error?_rxOnly_eq_none_iff {m : Mode} : Access.rxOnly.error? m = none ↔ m = .rx := by
  cases m <;> decide

/-! ## The branches of the commands' own rules -/

/-- BUF_WRITE stores its byte at BPTR, which is then in range, or fails (R68). -/
theorem bufWrite_cases (b : Byte) (s : State) :
    (s.bptr.toNat < s.params.fbufSize ∧
        bufWrite b s = ({ s with bptr := s.bptr + 1 }.setByte s.bptr.toNat b).setResult .ok) ∨
      bufWrite b s = s.setResult .errRange := by
  unfold bufWrite State.bptrInRange
  split_ifs with h
  · exact .inl ⟨of_decide_eq_true h, rfl⟩
  · exact .inr rfl

/-- FRM_ENCODE builds a frame whose payload fits, under a valid CONFIG, or fails (R76). -/
theorem frmEncode_cases (s : State) :
    ((s.configValid = true ∧ s.txLength.toNat ≤ s.capacity) ∧
        frmEncode s = (encodeFrame s.txIndex s.txLength s).setResult .ok) ∨
      ∃ r, frmEncode s = s.setResult r := by
  unfold frmEncode
  split_ifs with hc hl
  · exact .inr ⟨_, rfl⟩
  · exact .inr ⟨_, rfl⟩
  · exact .inl ⟨⟨by simpa using hc, Nat.le_of_not_lt hl⟩, rfl⟩

/-- FRM_DECODE checks the frame, or fails (R77). -/
theorem frmDecode_cases (s : State) :
    (∃ r, frmDecode s = (checkFrame s).setResult r) ∨ ∃ r, frmDecode s = s.setResult r := by
  unfold frmDecode
  split_ifs
  · exact .inr ⟨_, rfl⟩
  · exact .inl ⟨_, rfl⟩
  · exact .inl ⟨_, rfl⟩

/-- The registers TX_START prepares before it opens a session or finds that there is nothing to send (R80). -/
def State.txPrepared (s : State) : State := { s with txIndex := 0, txRemain := s.txTotal, fcount := 0, phase := .frame }

/-- TX_START ends an empty session at once, opens one that fits 65536 frames, or fails (R80). -/
theorem txStart_cases (s : State) :
    (s.txTotal = 0 ∧ txStart s = (s.txPrepared.emit [.event (.txDone 0)]).setResult .ok) ∨
      ((s.txTotal ≠ 0 ∧ s.configValid = true ∧ s.framesNeeded ≤ Config.maxFrames) ∧
        txStart s = (s.txPrepared.setMode .tx).setResult .ok) ∨
      ∃ r, txStart s = s.setResult r := by
  unfold txStart
  split_ifs with hc hf h0
  · exact .inr (.inr ⟨_, rfl⟩)
  · exact .inr (.inr ⟨_, rfl⟩)
  · exact .inl ⟨h0, rfl⟩
  · exact .inr (.inl ⟨⟨h0, by simpa using hc, Nat.le_of_not_lt hf⟩, rfl⟩)

/-- RX_START opens a session under a valid CONFIG, or fails (R88). -/
theorem rxStart_cases (s : State) :
    (s.configValid = true ∧
        rxStart s = { s with expected := 0, fcount := 0, phase := .frame, mode := .rx }.setResult .ok) ∨
      rxStart s = s.setResult .errConfig := by
  unfold rxStart
  split_ifs with hc
  · exact .inr rfl
  · exact .inl ⟨by simpa using hc, rfl⟩

/-- The verdict on a frame: it is admitted and moves EXPECTED, or it leaves one event of its rejection (R84, R86). -/
theorem rxVerdict_cases (k : FrameCheck) (s : State) :
    (∃ payload, rxVerdict k s =
        { s with expected := seqUpdate k.idx s.seqMode }.emit (payload ++ [Item.event (.rxAccept k.idx k.len)])) ∨
      ∃ e, rxVerdict k s = s.emit [.event e] := by
  unfold rxVerdict
  split_ifs
  · exact .inr ⟨_, rfl⟩
  · exact .inr ⟨_, rfl⟩
  · exact .inr ⟨_, rfl⟩
  · exact .inl ⟨_, rfl⟩

/-! ## The table of writes -/

/-- The step from `s` to `t` changes no field but those that command `i` may write. -/
def WritesOnly (i : Instr) (s t : State) : Prop :=
  match i with
  | .nop => t = { s with result := t.result }
  | .crcInit | .crcStep _ | .crcBulk _ => t = { s with crc := t.crc, result := t.result }
  | .bufSetptr _ => t = { s with bptr := t.bptr, result := t.result }
  | .bufWrite _ => t = { s with fbuf := t.fbuf, bptr := t.bptr, result := t.result }
  | .bufRead => t = { s with bufData := t.bufData, bptr := t.bptr, result := t.result }
  | .frmEncode => t = { s with fbuf := t.fbuf, crc := t.crc, result := t.result }
  | .frmDecode =>
    t = { s with
      rxIndex := t.rxIndex, rxLength := t.rxLength, rxStored := t.rxStored, rxCalc := t.rxCalc
      lenOver := t.lenOver, crc := t.crc, result := t.result }
  | .txStart =>
    t = { s with
      mode := t.mode, txIndex := t.txIndex, txRemain := t.txRemain, fcount := t.fcount, phase := t.phase
      out := t.out, result := t.result }
  | .txByte _ =>
    t = { s with
      mode := t.mode, txIndex := t.txIndex, txLength := t.txLength, txRemain := t.txRemain, fcount := t.fcount
      fbuf := t.fbuf, crc := t.crc, out := t.out, result := t.result }
  | .rxStart =>
    t = { s with mode := t.mode, expected := t.expected, fcount := t.fcount, phase := t.phase, result := t.result }
  | .rxByte _ =>
    t = { s with
      rxIndex := t.rxIndex, rxLength := t.rxLength, rxStored := t.rxStored, rxCalc := t.rxCalc
      lenOver := t.lenOver, expected := t.expected, fcount := t.fcount, phase := t.phase, fbuf := t.fbuf
      crc := t.crc, out := t.out, result := t.result }
  | .rxEnd =>
    t = { s with mode := t.mode, fcount := t.fcount, phase := t.phase, out := t.out, result := t.result }
  | .abort => t = { s with mode := t.mode, fcount := t.fcount, phase := t.phase, result := t.result }

/-- Every command may write RESULT. -/
theorem writesOnly_setResult (i : Instr) (s : State) (r : Result) : WritesOnly i s (s.setResult r) := by
  cases i <;> rfl

theorem frmDecode_writesOnly (s : State) : WritesOnly .frmDecode s (frmDecode s) := by
  obtain ⟨r, h⟩ | ⟨r, h⟩ := frmDecode_cases s <;> rw [h] <;> rfl

theorem txStart_writesOnly (s : State) : WritesOnly .txStart s (txStart s) := by
  obtain ⟨-, h⟩ | ⟨-, h⟩ | ⟨r, h⟩ := txStart_cases s <;> rw [h] <;> rfl

theorem txByte_writesOnly (b : Byte) (s : State) : WritesOnly (.txByte b) s (txByte b s) := by
  obtain ⟨-, h⟩ | ⟨-, h⟩ | ⟨-, h⟩ := txByte_cases b s
  · rw [h]; rfl
  · rw [h]; apply State.ext <;> simp
  · rw [h]; apply State.ext <;> simp

theorem rxByte_writesOnly (b : Byte) (s : State) : WritesOnly (.rxByte b) s (rxByte b s) := by
  obtain ⟨-, h⟩ | ⟨-, h⟩ | ⟨-, h⟩ := rxByte_cases b s
  · rw [h]; rfl
  · rw [h]; rfl
  · rw [h]; apply State.ext <;> simp

/-- Every command's own rule keeps to the table. -/
theorem commandRule_writesOnly (i : Instr) (s : State) : WritesOnly i s (commandRule i s) := by
  cases i with
  | crcBulk n => show WritesOnly _ s (crcBulk n s); unfold crcBulk; split_ifs <;> rfl
  | bufRead => show WritesOnly _ s (bufRead s); unfold bufRead; split_ifs <;> rfl
  | bufWrite b =>
    show WritesOnly _ s (bufWrite b s)
    obtain ⟨-, h⟩ | h := bufWrite_cases b s <;> rw [h] <;> rfl
  | frmEncode =>
    show WritesOnly _ s (frmEncode s)
    obtain ⟨-, h⟩ | ⟨r, h⟩ := frmEncode_cases s
    · rw [h]; apply State.ext <;> simp
    · rw [h]; rfl
  | rxStart =>
    show WritesOnly _ s (rxStart s)
    obtain ⟨-, h⟩ | h := rxStart_cases s <;> rw [h] <;> rfl
  | frmDecode => exact frmDecode_writesOnly s
  | txStart => exact txStart_writesOnly s
  | txByte b => exact txByte_writesOnly b s
  | rxByte b => exact rxByte_writesOnly b s
  | nop | crcInit | crcStep _ | bufSetptr _ | rxEnd | abort => rfl

/-- A command that completes writes only what the table gives it, whether it ran or was rejected. -/
theorem exec_writesOnly {i : Instr} {s t : State} (h : exec i s = .next t) : WritesOnly i s t := by
  obtain ⟨-, rfl⟩ | ⟨r, -, rfl⟩ := exec_next_cases h
  · exact commandRule_writesOnly i s
  · exact writesOnly_setResult i s r

end Sys2Proof.Machine
end

section
/-! The invariant (Safety.lean): every step from a legal state gives a legal state. The buffer's half of it is kept
by every command that writes in range; the sequencing half is the session's conservation law, argued per command. -/

namespace Sys2Proof.Machine

/-! ## The buffer -/

/-- The buffer's legality is a matter of three fields. -/
theorem State.bufferLegal_congr {s t : State} (hp : t.params = s.params) (hd : t.draw = s.draw)
    (hf : t.fbuf = s.fbuf) (h : s.bufferLegal) : t.bufferLegal := by
  unfold State.bufferLegal; rwa [hp, hd, hf]

theorem State.bufferLegal.setResult {s : State} (h : s.bufferLegal) (r : Result) : (s.setResult r).bufferLegal := h

/-- A byte stored inside FBUF keeps the buffer legal. -/
theorem State.bufferLegal.setByte {s : State} (h : s.bufferLegal) {i : Nat} (hi : i < s.params.fbufSize) (b : Byte) :
    (s.setByte i b).bufferLegal := by
  obtain ⟨hp, hd, hwf, hr⟩ := h
  refine ⟨hp, hd, State.setByte_wf hwf i b, fun c hc => ?_⟩
  obtain rfl | hc := MemoryLaws.write_index hc
  · exact hi
  · exact hr c hc

/-- A frame built inside FBUF keeps the buffer legal. -/
theorem State.bufferLegal.encodeFrame {s : State} (h : s.bufferLegal) (hc : s.configValid = true) (idx : Half)
    {len : Half} (hl : len.toNat ≤ s.capacity) : (encodeFrame idx len s).bufferLegal := by
  obtain ⟨hp, hd, hwf, hr⟩ := h
  obtain ⟨hmin, hmax⟩ := s.configValid_iff.mp hc
  unfold State.bufferLegal
  simp only [encodeFrame_params, encodeFrame_draw]
  refine ⟨hp, hd, encodeFrame_wf idx len hwf, fun c hc => ?_⟩
  obtain hlt | hc := encodeFrame_index hl hc
  · rw [s.capacity_eq] at hlt; omega
  · exact hr c hc

/-- The frame that completes a payload keeps the buffer legal. -/
theorem State.bufferLegal.txFrameComplete {s : State} (h : s.bufferLegal) (hc : s.configValid = true)
    (hl : s.fcount.toNat ≤ s.capacity) : (txFrameComplete s).bufferLegal :=
  State.bufferLegal_congr (s := txBuilt s) (by simp [txBuilt]) (by simp [txBuilt]) (txFrameComplete_fbuf s)
    (State.bufferLegal.encodeFrame (s := { s with txLength := s.fcount }) h hc s.txIndex hl)

/-- FCOUNT counts a byte of an encode session without wrapping. -/
theorem txAccept_fcount_toNat {s : State} (b : Byte) (h : s.fcount.toNat < s.capacity) :
    (txAccept b s).fcount.toNat = s.fcount.toNat + 1 := by
  have hfs := s.frameSize.isLt
  rw [s.capacity_eq] at h
  rw [txAccept_fcount, BitVec.toNat_add_of_lt (by simp; omega)]
  rfl

theorem txAccept_bufferLegal {s : State} (b : Byte) (h : s.bufferLegal) (hc : s.configValid = true)
    (hf : s.fcount.toNat < s.capacity) : (txAccept b s).bufferLegal := by
  obtain ⟨hmin, hmax⟩ := s.configValid_iff.mp hc
  rw [s.capacity_eq] at hf
  exact State.bufferLegal.setByte (s := { s with fcount := s.fcount + 1, txRemain := s.txRemain - 1 }) h
    (show 4 + s.fcount.toNat < s.params.fbufSize by omega) b

theorem txByte_bufferLegal {s : State} (b : Byte) (h : s.bufferLegal) (hc : s.configValid = true)
    (hf : s.fcount.toNat < s.capacity) : (txByte b s).bufferLegal := by
  have hu : (txAccept b s).bufferLegal := txAccept_bufferLegal b h hc hf
  have hv : (txFrameComplete (txAccept b s)).bufferLegal := by
    refine hu.txFrameComplete hc ?_
    rw [txAccept_fcount_toNat b hf]
    exact hf
  obtain ⟨-, e⟩ | ⟨-, e⟩ | ⟨-, e⟩ := txByte_cases b s
  · rw [e]; exact hu.setResult .ok
  · rw [e]; exact hv.setResult .ok
  · rw [e]; exact State.bufferLegal_congr (s := txFrameComplete (txAccept b s)) rfl rfl rfl hv

theorem rxByte_bufferLegal {s : State} (b : Byte) (h : s.bufferLegal)
    (hf : s.phase = .frame → s.fcount.toNat < s.params.fbufSize) : (rxByte b s).bufferLegal := by
  have hu (hp : s.phase = .frame) : (rxAccept b s).bufferLegal :=
    State.bufferLegal.setByte (s := { s with fcount := s.fcount + 1 }) h (hf hp) b
  obtain ⟨-, e⟩ | ⟨⟨hp, -⟩, e⟩ | ⟨⟨hp, -⟩, e⟩ := rxByte_cases b s
  · rw [e]; exact h
  · rw [e]; exact hu hp
  · rw [e]
    exact State.bufferLegal_congr (s := rxAccept b s) (by simp) (by simp) (by simp) (hu hp)

/-- An index of a legal decode session lies in FBUF. -/
theorem State.decodeLegal.fcount_lt {s : State} (h : s.decodeLegal) : s.fcount.toNat < s.params.fbufSize := by
  obtain ⟨hc, hf, -⟩ := h
  exact hf.trans_le (s.configValid_iff.mp hc).2

/-- Every command's own rule keeps the buffer legal, in a mode that accepts it. -/
theorem commandRule_bufferLegal {i : Instr} {s : State} (h : s.Inv) (ha : (commandGuard i).error? s.mode = none) :
    (commandRule i s).bufferLegal := by
  obtain ⟨hb, -, htx, hrx⟩ := h
  have hw : WritesOnly i s (commandRule i s) := commandRule_writesOnly i s
  cases i with
  | bufWrite b =>
    show (bufWrite b s).bufferLegal
    obtain ⟨hp, e⟩ | e := bufWrite_cases b s
    · rw [e]; exact State.bufferLegal.setByte (s := { s with bptr := s.bptr + 1 }) hb hp b
    · rw [e]; exact hb
  | frmEncode =>
    show (frmEncode s).bufferLegal
    obtain ⟨⟨hc, hl⟩, e⟩ | ⟨r, e⟩ := frmEncode_cases s
    · rw [e]; exact (hb.encodeFrame hc s.txIndex hl).setResult .ok
    · rw [e]; exact hb
  | txByte b =>
    obtain ⟨hc, -, hf, -⟩ := htx (error?_txOnly_eq_none_iff.mp ha)
    exact txByte_bufferLegal b hb hc hf
  | rxByte b => exact rxByte_bufferLegal b hb fun _ => (hrx (error?_rxOnly_eq_none_iff.mp ha)).fcount_lt
  | nop | crcInit | crcStep _ | crcBulk _ | bufSetptr _ | bufRead | frmDecode | txStart | rxStart | rxEnd | abort =>
    exact State.bufferLegal_congr (congrArg State.params hw) (congrArg State.draw hw) (congrArg State.fbuf hw) hb

/-! ## The sequencing registers -/

/-- Outside a session only FCOUNT and PHASE are bound. -/
theorem State.sessionLegal_of_idle {s : State} (hm : s.mode = .idle) (hf : s.fcount = 0) (hp : s.phase = .frame) :
    s.sessionLegal := ⟨fun _ => ⟨hf, hp⟩, by simp [hm], by simp [hm]⟩

theorem State.sessionLegal_of_tx {s : State} (hm : s.mode = .tx) (h : s.encodeLegal) : s.sessionLegal :=
  ⟨by simp [hm], fun _ => h, by simp [hm]⟩

theorem State.sessionLegal_of_rx {s : State} (hm : s.mode = .rx) (h : s.decodeLegal) : s.sessionLegal :=
  ⟨by simp [hm], by simp [hm], fun _ => h⟩

/-- The registers that the legality of a session is about. -/
def State.sequencing (s : State) : Mode × Half × Phase × Half × Word × Word × Half × Config.Params :=
  (s.mode, s.fcount, s.phase, s.txIndex, s.txTotal, s.txRemain, s.frameSize, s.params)

theorem State.sessionLegal_congr {s t : State} (e : t.sequencing = s.sequencing) (h : s.sessionLegal) :
    t.sessionLegal := by
  simp only [State.sequencing, Prod.mk.injEq] at e
  obtain ⟨hm, hf, hp, hi, ht, hr, hs, hpar⟩ := e
  simpa only [State.sessionLegal, State.idleLegal, State.encodeLegal, State.decodeLegal, State.configValid_congr hs hpar,
    State.capacity_congr hs, hm, hf, hp, hi, ht, hr, hs] using h

/-- What a session may count: frames enough for TX_TOTAL (R78, R80). -/
theorem le_mul_of_frameCount_le {total : Word} {cap n : Nat} (hcap : 0 < cap) (h : frameCount total cap ≤ n) :
    total.toNat ≤ n * cap := by
  have : (total.toNat + cap - 1) / cap < n + 1 := Nat.lt_succ_of_le h
  rw [Nat.div_lt_iff_lt_mul hcap, Nat.succ_mul] at this
  omega

/-- A valid CONFIG leaves room for a payload byte (R9). -/
theorem State.capacity_pos {s : State} (hc : s.configValid = true) : 0 < s.capacity := by
  have := (s.configValid_iff.mp hc).1
  rw [s.capacity_eq]; omega

theorem txStart_sessionLegal {s : State} (h : s.sessionLegal) (hm : s.mode = .idle) : (txStart s).sessionLegal := by
  obtain ⟨-, e⟩ | ⟨⟨h0, hc, hn⟩, e⟩ | ⟨r, e⟩ := txStart_cases s
  · rw [e]; exact State.sessionLegal_of_idle hm rfl rfl
  · rw [e]
    have hcap := State.capacity_pos hc
    have hpos : 0 < s.txTotal.toNat := Nat.pos_of_ne_zero fun hz => h0 (BitVec.eq_of_toNat_eq hz)
    refine State.sessionLegal_of_tx rfl ⟨hc, le_mul_of_frameCount_le hcap hn, hcap, rfl, hpos, ?_⟩
    show 0 * s.capacity + 0 + s.txTotal.toNat = s.txTotal.toNat
    omega
  · rw [e]; exact h

theorem rxStart_sessionLegal {s : State} (h : s.sessionLegal) : (rxStart s).sessionLegal := by
  obtain ⟨hc, e⟩ | e := rxStart_cases s
  · rw [e]
    have hpos : 0 < s.frameSize.toNat := by have := (s.configValid_iff.mp hc).1; omega
    exact State.sessionLegal_of_rx rfl ⟨hc, hpos, fun _ => rfl⟩
  · rw [e]; exact h

theorem State.sessionLegal.setResult {s : State} (h : s.sessionLegal) (r : Result) : (s.setResult r).sessionLegal := h

/-- An encode session counts a byte of TX_REMAIN down without wrapping. -/
theorem txAccept_txRemain_toNat {s : State} (b : Byte) (h : 0 < s.txRemain.toNat) :
    (txAccept b s).txRemain.toNat = s.txRemain.toNat - 1 := by
  rw [txAccept_txRemain, BitVec.toNat_sub_of_le h]
  rfl

/-- A byte moves from TX_REMAIN to FCOUNT: the sum that makes up TX_TOTAL is kept. -/
theorem txAccept_conserves {s : State} (b : Byte) (h : s.encodeLegal) :
    s.txIndex.toNat * s.capacity + (txAccept b s).fcount.toNat + (txAccept b s).txRemain.toNat = s.txTotal.toNat := by
  obtain ⟨-, -, hf, -, hr, hsum⟩ := h
  rw [txAccept_fcount_toNat b hf, txAccept_txRemain_toNat b hr]
  omega

/-- A byte that leaves its frame open leaves the session legal. -/
theorem txAccept_encodeLegal {s : State} (b : Byte) (h : s.encodeLegal)
    (hf : (txAccept b s).fcount.toNat ≠ s.capacity) (hr : (txAccept b s).txRemain ≠ 0) :
    (txAccept b s).encodeLegal := by
  have hsum := txAccept_conserves b h
  obtain ⟨hc, htotal, hlt, hp, -, -⟩ := h
  refine ⟨hc, htotal, ?_, hp, Nat.pos_of_ne_zero fun hz => hr (BitVec.eq_of_toNat_eq hz), hsum⟩
  rw [txAccept_fcount_toNat b hlt] at hf ⊢
  exact Nat.lt_of_le_of_ne hlt hf

/-- A completed frame moves its P bytes from FCOUNT to TX_INDEX, which cannot wrap while bytes are still to come. -/
theorem txFrameComplete_encodeLegal {s : State} (hc : s.configValid = true)
    (htotal : s.txTotal.toNat ≤ Config.maxFrames * s.capacity) (hp : s.phase = .frame)
    (hsum : s.txIndex.toNat * s.capacity + s.fcount.toNat + s.txRemain.toNat = s.txTotal.toNat)
    (hf : s.fcount.toNat = s.capacity) (hr : s.txRemain ≠ 0) : (txFrameComplete s).encodeLegal := by
  have hcap := State.capacity_pos hc
  have hpos : 0 < s.txRemain.toNat := Nat.pos_of_ne_zero fun hz => hr (BitVec.eq_of_toNat_eq hz)
  have hindex : (s.txIndex.toNat + 1) * s.capacity < 65536 * s.capacity := by
    rw [Nat.succ_mul]
    have : s.txTotal.toNat ≤ 65536 * s.capacity := htotal
    omega
  have hwrap : (s.txIndex + 1).toNat = s.txIndex.toNat + 1 :=
    BitVec.toNat_add_of_lt (Nat.lt_of_mul_lt_mul_right hindex)
  unfold State.encodeLegal
  rw [State.configValid_congr (txFrameComplete_frameSize s) (txFrameComplete_params s),
    State.capacity_congr (txFrameComplete_frameSize s)]
  simp only [txFrameComplete_txTotal, txFrameComplete_fcount, txFrameComplete_phase, txFrameComplete_txRemain,
    txFrameComplete_txIndex, hwrap, Nat.succ_mul]
  exact ⟨hc, htotal, hcap, hp, hpos, by rw [← hsum, hf]; simp⟩

theorem txByte_sessionLegal {s : State} (b : Byte) (hm : s.mode = .tx) (h : s.encodeLegal) :
    (txByte b s).sessionLegal := by
  have hsum := txAccept_conserves b h
  obtain ⟨⟨hf, hr⟩, e⟩ | ⟨⟨hf, hr⟩, e⟩ | ⟨-, e⟩ := txByte_cases b s
  · rw [e]
    exact (State.sessionLegal_of_tx (s := txAccept b s) hm (txAccept_encodeLegal b h hf hr)).setResult .ok
  · rw [e]
    obtain ⟨hc, htotal, -, hp, -, -⟩ := h
    refine (State.sessionLegal_of_tx (by simpa using hm) ?_).setResult .ok
    exact txFrameComplete_encodeLegal (s := txAccept b s) hc htotal hp hsum hf hr
  · rw [e]
    obtain ⟨-, -, -, hp, -, -⟩ := h
    exact State.sessionLegal_of_idle (by simp) (by simp) (by simpa using hp)

/-- FCOUNT counts a byte of a decode session without wrapping. -/
theorem rxAccept_fcount_toNat {s : State} (b : Byte) (h : s.fcount.toNat < s.frameSize.toNat) :
    (rxAccept b s).fcount.toNat = s.fcount.toNat + 1 := by
  have hfs := s.frameSize.isLt
  rw [rxAccept_fcount, BitVec.toNat_add_of_lt (by simp; omega)]
  rfl

theorem rxByte_sessionLegal {s : State} (b : Byte) (hm : s.mode = .rx) (h : s.decodeLegal) :
    (rxByte b s).sessionLegal := by
  obtain ⟨hc, hf, -⟩ := h
  obtain ⟨-, e⟩ | ⟨⟨hp, hne⟩, e⟩ | ⟨-, e⟩ := rxByte_cases b s
  · rw [e]
    exact State.sessionLegal_of_rx (s := { s with phase := .frame }.done) hm ⟨hc, hf, fun hs => by simp at hs⟩
  · rw [e]
    refine State.sessionLegal_of_rx (s := (rxAccept b s).done) hm ⟨hc, ?_, fun hs => by simp [hp] at hs⟩
    have hne' : (rxAccept b s).fcount.toNat ≠ s.frameSize.toNat := fun he => hne (BitVec.eq_of_toNat_eq he)
    have := rxAccept_fcount_toNat b hf
    show (rxAccept b s).fcount.toNat < s.frameSize.toNat
    omega
  · rw [e]
    refine State.sessionLegal_of_rx (by simpa using hm) ?_
    unfold State.decodeLegal
    rw [State.configValid_congr (t := (rxFrameComplete _).done) (s := s) (by simp) (by simp)]
    have hpos : 0 < s.frameSize.toNat := by omega
    simpa using ⟨hc, hpos⟩

/-- Every command's own rule keeps the sequencing registers legal, in a mode that accepts it. -/
theorem commandRule_sessionLegal {i : Instr} {s : State} (h : s.sessionLegal)
    (ha : (commandGuard i).error? s.mode = none) : (commandRule i s).sessionLegal := by
  obtain ⟨-, htx, hrx⟩ := id h
  have hw : WritesOnly i s (commandRule i s) := commandRule_writesOnly i s
  cases i with
  | txStart => exact txStart_sessionLegal h (error?_idleOnly_eq_none_iff.mp ha)
  | rxStart => exact rxStart_sessionLegal h
  | txByte b =>
    have hm : s.mode = .tx := error?_txOnly_eq_none_iff.mp ha
    exact txByte_sessionLegal b hm (htx hm)
  | rxByte b =>
    have hm : s.mode = .rx := error?_rxOnly_eq_none_iff.mp ha
    exact rxByte_sessionLegal b hm (hrx hm)
  | rxEnd | abort => exact State.sessionLegal_of_idle rfl rfl rfl
  | nop | crcInit | crcStep _ | crcBulk _ | bufSetptr _ | bufWrite _ | bufRead | frmEncode | frmDecode =>
    exact State.sessionLegal_congr (congrArg State.sequencing hw) h

/-! ## Every transaction -/

theorem exec_inv {i : Instr} {s t : State} (hs : s.Inv) (h : exec i s = .next t) : t.Inv := by
  obtain ⟨ha, rfl⟩ | ⟨r, -, rfl⟩ := exec_next_cases h
  · exact ⟨commandRule_bufferLegal hs ha, commandRule_sessionLegal hs.2 ha⟩
  · exact ⟨hs.1.setResult r, hs.2.setResult r⟩

/-- A reset makes every sequencing register idle and draws a byte for each index of FBUF (R113). -/
theorem platformReset_inv {s : State} (hs : s.Inv) : s.platformReset.Inv :=
  ⟨⟨hs.1.1, length_resetDraw _ _, MemoryLaws.nil_wf _, by simp [State.platformReset, State.reset]⟩,
    State.sessionLegal_of_idle rfl rfl rfl⟩

/-- An accepted register write comes in IDLE, where it touches nothing that is bound. -/
theorem storeReg_inv {s : State} (hs : s.Inv) (hm : s.mode = .idle) (off : Byte) (v : Word) :
    (s.storeReg off v).Inv := by
  obtain ⟨hb, hi, -⟩ := hs
  obtain ⟨hf, hp⟩ := hi hm
  obtain ⟨-, e⟩ | ⟨-, e⟩ | ⟨-, e⟩ | ⟨-, e⟩ | ⟨-, e⟩ | ⟨-, e⟩ | ⟨-, e⟩ := storeReg_cases s off v <;> rw [e] <;>
    exact ⟨hb, State.sessionLegal_of_idle hm hf hp⟩

theorem writeReg_inv {s : State} (hs : s.Inv) (off : Byte) (v : Word) : (s.writeReg off v).Inv := by
  obtain ⟨-, e⟩ | ⟨-, -, e⟩ | ⟨-, hm, e⟩ := writeReg_cases s off v
  · rw [e]; exact hs
  · rw [e]; exact hs
  · rw [e]; exact storeReg_inv hs hm off v

/-- Settles O16: each kind of transaction keeps the invariant. -/
theorem stepKeepsTheInvariant : Obligations.StepKeepsTheInvariant := by
  intro s t hs h
  have hi (rest : List Txn) : (s.issued rest).Inv := hs
  obtain ⟨-, rfl⟩ | ⟨rest, ⟨-, rfl⟩ | ⟨off, -, rfl⟩ | ⟨off, v, -, -, rfl⟩ | ⟨w, e, -, -, rfl⟩ | ⟨w, i, -, -, he⟩⟩ :=
    step_next_cases h
  · exact hs
  · exact platformReset_inv (hi rest)
  · exact hs
  · exact writeReg_inv (hi rest) off v
  · exact hs
  · exact exec_inv (hi rest) he

end Sys2Proof.Machine
end

section
/-! Which commands write which register (10_state.md R15, R17, R19, R20, R27 to R30, R118): each statement reads the
table of writes for the commands that cannot write the register, and looks at the branches of those that can. -/

namespace Sys2Proof.Machine

/-! ## CRC (R20) -/

/-- A TX_BYTE that changes CRC completes its frame. -/
theorem txByte_crc_ne {b : Byte} {s : State} (h : (txByte b s).crc ≠ s.crc) :
    (txByte b s).fcount = 0 ∧ (txByte b s).txIndex = s.txIndex + 1 := by
  obtain ⟨-, e⟩ | ⟨-, e⟩ | ⟨-, e⟩ := txByte_cases b s
  · rw [e] at h; exact absurd rfl h
  · simp [e]
  · simp [e]

/-- An RX_BYTE that changes CRC completes its frame. -/
theorem rxByte_crc_ne {b : Byte} {s : State} (h : (rxByte b s).crc ≠ s.crc) :
    s.phase = .frame ∧ (rxByte b s).phase = .separator ∧ (rxByte b s).fcount = 0 := by
  obtain ⟨-, e⟩ | ⟨-, e⟩ | ⟨⟨hp, -⟩, e⟩ := rxByte_cases b s
  · rw [e] at h; exact absurd rfl h
  · rw [e] at h; exact absurd rfl h
  · simp [e, hp]

/-- Settles O22: only the seven commands with CRC in the table of writes, each in the mode that accepts it. -/
theorem onlyCrcUsersWriteCrc : Obligations.OnlyCrcUsersWriteCrc := by
  intro i s t h hne
  have hw : WritesOnly i s t := exec_writesOnly h
  obtain ⟨ha, rfl⟩ | ⟨r, -, rfl⟩ := exec_next_cases h
  · cases i with
    | crcInit | crcStep _ | crcBulk _ | frmEncode | frmDecode =>
      exact .inl ⟨by simp [Instr.op], error?_idleOnly_eq_none_iff.mp ha⟩
    | txByte b => exact .inr (.inl ⟨rfl, error?_txOnly_eq_none_iff.mp ha, txByte_crc_ne hne⟩)
    | rxByte b => exact .inr (.inr ⟨rfl, error?_rxOnly_eq_none_iff.mp ha, rxByte_crc_ne hne⟩)
    | nop | bufSetptr _ | bufWrite _ | bufRead | txStart | rxStart | rxEnd | abort =>
      exact absurd (congrArg State.crc hw) hne
  · exact absurd rfl hne

/-! ## MODE (R15) -/

/-- A TX_BYTE that changes MODE is the session's last. -/
theorem txByte_mode_ne {b : Byte} {s : State} (h : (txByte b s).mode ≠ s.mode) :
    (txByte b s).mode = .idle ∧ (txByte b s).txRemain = 0 := by
  obtain ⟨-, e⟩ | ⟨-, e⟩ | ⟨hr, e⟩ := txByte_cases b s
  · rw [e] at h; exact absurd rfl h
  · simp [e] at h
  · simpa [e] using hr

theorem txStart_mode_ne {s : State} (h : (txStart s).mode ≠ s.mode) : (txStart s).mode = .tx := by
  obtain ⟨-, e⟩ | ⟨-, e⟩ | ⟨r, e⟩ := txStart_cases s
  · rw [e] at h; exact absurd rfl h
  · rw [e]; rfl
  · rw [e] at h; exact absurd rfl h

theorem rxStart_mode_ne {s : State} (h : (rxStart s).mode ≠ s.mode) : (rxStart s).mode = .rx := by
  obtain ⟨-, e⟩ | e := rxStart_cases s
  · rw [e]; rfl
  · rw [e] at h; exact absurd rfl h

/-- The commands that change MODE, each with its modes before and after (R15). -/
theorem exec_mode_ne {i : Instr} {s t : State} (h : exec i s = .next t) (hne : t.mode ≠ s.mode) :
    i = .txStart ∧ s.mode = .idle ∧ t.mode = .tx ∨
      (∃ b, i = .txByte b) ∧ s.mode = .tx ∧ t.mode = .idle ∧ t.txRemain = 0 ∨
      i = .rxStart ∧ s.mode = .idle ∧ t.mode = .rx ∨
      i = .rxEnd ∧ s.mode = .rx ∧ t.mode = .idle ∨
      i = .abort ∧ t.mode = .idle := by
  have hw : WritesOnly i s t := exec_writesOnly h
  obtain ⟨ha, rfl⟩ | ⟨r, -, rfl⟩ := exec_next_cases h
  · cases i with
    | txStart => exact .inl ⟨rfl, error?_idleOnly_eq_none_iff.mp ha, txStart_mode_ne hne⟩
    | txByte b => exact .inr (.inl ⟨⟨b, rfl⟩, error?_txOnly_eq_none_iff.mp ha, txByte_mode_ne hne⟩)
    | rxStart => exact .inr (.inr (.inl ⟨rfl, error?_idleOnly_eq_none_iff.mp ha, rxStart_mode_ne hne⟩))
    | rxEnd => exact .inr (.inr (.inr (.inl ⟨rfl, error?_rxOnly_eq_none_iff.mp ha, rfl⟩)))
    | abort => exact .inr (.inr (.inr (.inr ⟨rfl, rfl⟩)))
    | nop | crcInit | crcStep _ | crcBulk _ | bufSetptr _ | bufWrite _ | bufRead | frmEncode | frmDecode | rxByte _ =>
      exact absurd (congrArg State.mode hw) hne
  · exact absurd rfl hne

@[simp] theorem storeReg_mode (s : State) (off : Byte) (v : Word) : (s.storeReg off v).mode = s.mode := by
  obtain ⟨-, e⟩ | ⟨-, e⟩ | ⟨-, e⟩ | ⟨-, e⟩ | ⟨-, e⟩ | ⟨-, e⟩ | ⟨-, e⟩ := storeReg_cases s off v <;> rw [e]

@[simp] theorem writeReg_mode (s : State) (off : Byte) (v : Word) : (s.writeReg off v).mode = s.mode := by
  obtain ⟨-, e⟩ | ⟨-, -, e⟩ | ⟨-, -, e⟩ := writeReg_cases s off v <;> simp [e]

/-- Settles O25: of the transactions only a reset and a command change MODE. -/
theorem onlySessionCommandsWriteMode : Obligations.OnlySessionCommandsWriteMode := by
  intro s t h hne
  obtain ⟨-, rfl⟩ | ⟨rest, ⟨hh, rfl⟩ | ⟨off, -, rfl⟩ | ⟨off, v, -, -, rfl⟩ | ⟨w, e, -, -, rfl⟩ | ⟨w, i, hh, hd, he⟩⟩ :=
    step_next_cases h
  · exact absurd rfl hne
  · exact ⟨.reset, rest, hh, .inl ⟨rfl, rfl⟩⟩
  · exact absurd rfl hne
  · exact absurd (writeReg_mode _ off v) hne
  · exact absurd rfl hne
  · exact ⟨.wr cmdOffset w, rest, hh, .inr ⟨w, i, rfl, hd, exec_mode_ne (s := s.issued rest) he hne⟩⟩

/-! ## What a session locks (R19, R121) -/

/-- In a session no accepted command writes BPTR or BUF_DATA. -/
theorem exec_session_pointer {i : Instr} {s t : State} (h : exec i s = .next t) (hm : s.mode ≠ .idle) :
    t.bptr = s.bptr ∧ t.bufData = s.bufData := by
  have hw : WritesOnly i s t := exec_writesOnly h
  obtain ⟨ha, rfl⟩ | ⟨r, -, rfl⟩ := exec_next_cases h
  · cases i with
    | bufSetptr _ | bufWrite _ | bufRead => exact absurd (error?_idleOnly_eq_none_iff.mp ha) hm
    | nop | crcInit | crcStep _ | crcBulk _ | frmEncode | frmDecode | txStart | txByte _ | rxStart | rxByte _ | rxEnd
    | abort => exact ⟨(congrArg State.bptr hw :), (congrArg State.bufData hw :)⟩
  · exact ⟨rfl, rfl⟩

/-- In a session every register write is rejected (R96). -/
theorem writeReg_of_session {s : State} (hm : s.mode ≠ .idle) (off : Byte) (v : Word) :
    ∃ r, s.writeReg off v = s.setResult r := by
  obtain ⟨-, e⟩ | ⟨-, -, e⟩ | ⟨-, hi, -⟩ := writeReg_cases s off v
  · exact ⟨_, e⟩
  · exact ⟨_, e⟩
  · exact absurd hi hm

/-- Settles O26: a read changes no register, a write is rejected, and a command leaves the six fields. -/
theorem sessionLocksConfiguration : Obligations.SessionLocksConfiguration := by
  intro s t h hm hreset
  obtain ⟨-, rfl⟩ | ⟨rest, ⟨hh, rfl⟩ | ⟨off, -, rfl⟩ | ⟨off, v, -, -, rfl⟩ | ⟨w, e, -, -, rfl⟩ | ⟨w, i, -, -, he⟩⟩ :=
    step_next_cases h
  · exact ⟨rfl, rfl, rfl, rfl, rfl, rfl⟩
  · exact absurd hh (hreset rest)
  · exact ⟨rfl, rfl, rfl, rfl, rfl, rfl⟩
  · obtain ⟨r, e⟩ := writeReg_of_session (s := s.issued rest) hm off v
    rw [e]
    exact ⟨rfl, rfl, rfl, rfl, rfl, rfl⟩
  · exact ⟨rfl, rfl, rfl, rfl, rfl, rfl⟩
  · obtain ⟨hf, hk, hq, ht, -⟩ := commandsLeaveConfigurationAndHost i _ t he
    exact ⟨hf, hk, hq, ht, exec_session_pointer (s := s.issued rest) he hm⟩

/-! ## EXPECTED (R30) -/

theorem rxStart_expected_ne {s : State} (h : (rxStart s).expected ≠ s.expected) : (rxStart s).expected = 0 := by
  obtain ⟨-, e⟩ | e := rxStart_cases s
  · rw [e]; rfl
  · rw [e] at h; exact absurd rfl h

/-- A completed frame that changes EXPECTED is admitted, and its RX_ACCEPT event comes last. -/
theorem rxFrameComplete_expected_ne {s : State} (h : (rxFrameComplete s).expected ≠ s.expected) :
    ∃ idx len items, (rxFrameComplete s).out = s.out ++ items ++ [.event (.rxAccept idx len)] ∧
      (rxFrameComplete s).expected = seqUpdate idx s.seqMode := by
  rw [rxFrameComplete] at h ⊢
  obtain ⟨payload, e⟩ | ⟨ev, e⟩ := rxVerdict_cases s.frameCheck (checkFrame s)
  · rw [e]
    exact ⟨_, _, payload, (List.append_assoc _ _ _).symm, rfl⟩
  · rw [e] at h; exact absurd rfl h

/-- An RX_BYTE that changes EXPECTED completes a frame that is admitted. -/
theorem rxByte_expected_ne {b : Byte} {s : State} (h : (rxByte b s).expected ≠ s.expected) :
    ∃ idx len items, (rxByte b s).out = s.out ++ items ++ [.event (.rxAccept idx len)] ∧
      (rxByte b s).expected = seqUpdate idx s.seqMode := by
  obtain ⟨-, e⟩ | ⟨-, e⟩ | ⟨-, e⟩ := rxByte_cases b s
  · rw [e] at h; exact absurd rfl h
  · rw [e] at h; exact absurd rfl h
  · rw [e] at h ⊢
    simpa using rxFrameComplete_expected_ne (s := rxToSeparator (rxAccept b s)) (by simpa using h)

/-- Settles O28: EXPECTED stands in the table of writes for RX_START and RX_BYTE only. -/
theorem onlyAdmittedFramesMoveExpected : Obligations.OnlyAdmittedFramesMoveExpected := by
  intro i s t h hne
  have hw : WritesOnly i s t := exec_writesOnly h
  obtain ⟨-, rfl⟩ | ⟨r, -, rfl⟩ := exec_next_cases h
  · cases i with
    | rxStart => exact .inl ⟨rfl, rxStart_expected_ne hne⟩
    | rxByte b =>
      obtain ⟨idx, len, items, hout, hexp⟩ := rxByte_expected_ne hne
      exact .inr ⟨b, idx, len, items, rfl, hout, hexp⟩
    | nop | crcInit | crcStep _ | crcBulk _ | bufSetptr _ | bufWrite _ | bufRead | frmEncode | frmDecode | txStart
    | txByte _ | rxEnd | abort => exact absurd (congrArg State.expected hw) hne
  · exact absurd rfl hne

/-! ## The decode registers (R17, R27, R28, R29) -/

/-- RX_INDEX, RX_LENGTH, RX_CRC and LEN_OVER: what CheckFrame writes besides CRC. -/
def State.decodeRegisters (s : State) : Half × Half × Half × Half × Bool :=
  (s.rxIndex, s.rxLength, s.rxStored, s.rxCalc, s.lenOver)

/-- `t` holds in its decode registers the outcome of a frame check made in `s`. -/
def FrameChecked (s t : State) : Prop :=
  t.crc = t.rxCalc ∧
    (t.rxStored ≠ t.rxCalc → t.rxIndex = s.rxIndex ∧ t.rxLength = s.rxLength ∧ t.lenOver = false) ∧
    (t.rxStored = t.rxCalc → t.lenOver = decide (s.frameSize.toNat - 6 < t.rxLength.toNat))

theorem checkFrame_frameChecked (s : State) : FrameChecked s (checkFrame s) := by
  have hok := frameCheck_ok_iff s
  cases h : s.frameCheck.ok with
  | false =>
    rw [checkFrame_of_mismatch h]
    have hne : s.frameCheck.stored ≠ s.frameCheck.computed := fun he => by simp [h, he] at hok
    exact ⟨rfl, fun _ => ⟨rfl, rfl, rfl⟩, fun he => absurd he hne⟩
  | true =>
    rw [checkFrame_of_ok h]
    exact ⟨rfl, fun hne => absurd (hok.mp h).symm hne, fun _ => rfl⟩

theorem rxFrameComplete_frameChecked (s : State) : FrameChecked s (rxFrameComplete s) := by
  have h := checkFrame_frameChecked s
  simpa only [FrameChecked, rxFrameComplete_crc, rxFrameComplete_rxCalc, rxFrameComplete_rxStored,
    rxFrameComplete_rxIndex, rxFrameComplete_rxLength, rxFrameComplete_lenOver] using h

theorem frmDecode_frameChecked {s : State} (h : (frmDecode s).decodeRegisters ≠ s.decodeRegisters) :
    FrameChecked s (frmDecode s) := by
  obtain ⟨r, e⟩ | ⟨r, e⟩ := frmDecode_cases s
  · rw [e]; exact checkFrame_frameChecked s
  · rw [e] at h; exact absurd rfl h

theorem rxByte_frameChecked {b : Byte} {s : State} (h : (rxByte b s).decodeRegisters ≠ s.decodeRegisters) :
    FrameChecked s (rxByte b s) := by
  obtain ⟨-, e⟩ | ⟨-, e⟩ | ⟨-, e⟩ := rxByte_cases b s
  · rw [e] at h; exact absurd rfl h
  · rw [e] at h; exact absurd rfl h
  · rw [e]; exact rxFrameComplete_frameChecked (rxToSeparator (rxAccept b s))

/-- Settles O29: the decode registers stand in the table of writes for FRM_DECODE and RX_BYTE only. -/
theorem onlyFrameChecksWriteDecodeRegisters : Obligations.OnlyFrameChecksWriteDecodeRegisters := by
  intro i s t h hne
  have hw : WritesOnly i s t := exec_writesOnly h
  obtain ⟨-, rfl⟩ | ⟨r, -, rfl⟩ := exec_next_cases h
  · cases i with
    | frmDecode => exact ⟨.inl rfl, frmDecode_frameChecked hne⟩
    | rxByte b => exact ⟨.inr ⟨b, rfl⟩, rxByte_frameChecked hne⟩
    | nop | crcInit | crcStep _ | crcBulk _ | bufSetptr _ | bufWrite _ | bufRead | frmEncode | txStart | txByte _
    | rxStart | rxEnd | abort => exact absurd (congrArg State.decodeRegisters hw) hne
  · exact absurd rfl hne

/-! ## FBUF (R32, R118) -/

/-- A valid CONFIG's frame has P + 6 = FRAME_SIZE bytes (R9). -/
theorem State.capacity_add_overhead {s : State} (hc : s.configValid = true) : s.capacity + 6 = s.frameSize.toNat := by
  have := (s.configValid_iff.mp hc).1
  rw [s.capacity_eq]; omega

theorem bufWrite_byteAt_ne {b : Byte} {s : State} {j : Nat} (h : (bufWrite b s).byteAt j ≠ s.byteAt j) :
    j = s.bptr.toNat := by
  obtain ⟨-, e⟩ | e := bufWrite_cases b s
  · rw [e] at h
    by_contra hj
    exact h ((State.byteAt_setByte _ _ b j).trans (if_neg hj))
  · rw [e] at h; exact absurd rfl h

theorem frmEncode_byteAt_ne {s : State} {j : Nat} (h : (frmEncode s).byteAt j ≠ s.byteAt j) :
    j < s.frameSize.toNat := by
  obtain ⟨⟨hc, hl⟩, e⟩ | ⟨r, e⟩ := frmEncode_cases s
  · rw [e] at h
    by_contra hj
    rw [← State.capacity_add_overhead hc] at hj
    exact h (encodeFrame_above s.txIndex s.txLength s hl (Nat.le_of_not_lt hj))
  · rw [e] at h; exact absurd rfl h

/-- The sequencing ranges under which TX_BYTE does not stop (assumption log 4). -/
theorem exec_txByte_range {b : Byte} {s t : State} (h : exec (.txByte b) s = .next t) (hm : s.mode = .tx) :
    s.configValid = true ∧ s.fcount.toNat < s.capacity := by
  obtain ⟨-, -, -, he⟩ | ⟨-, -, -, he⟩ | ⟨htx, -, -⟩ := exec_cases (.txByte b) s
  · simp [h] at he
  · simp [h] at he
  · obtain ⟨hc, hf, -⟩ := s.encodeSessionInRange_iff.mp (htx b rfl hm)
    exact ⟨hc, hf⟩

/-- TX_BYTE stores its byte inside the frame, and the frame it may build ends at FRAME_SIZE. -/
theorem txByte_byteAt_above {b : Byte} {s : State} (hc : s.configValid = true) (hf : s.fcount.toNat < s.capacity)
    {j : Nat} (hj : s.frameSize.toNat ≤ j) : (txByte b s).byteAt j = s.byteAt j := by
  rw [← State.capacity_add_overhead hc] at hj
  have hu : (txAccept b s).byteAt j = s.byteAt j := by rw [byteAt_txAccept, if_neg (by omega)]
  have hle : (txAccept b s).fcount.toNat ≤ s.capacity := by rw [txAccept_fcount_toNat b hf]; exact hf
  have hv : (txFrameComplete (txAccept b s)).byteAt j = s.byteAt j :=
    (txFrameComplete_above (txAccept b s) hle hj).trans hu
  obtain ⟨-, e⟩ | ⟨-, e⟩ | ⟨-, e⟩ := txByte_cases b s
  · rw [e]; exact hu
  · rw [e]; exact hv
  · rw [e]; exact hv

theorem rxByte_byteAt_ne {b : Byte} {s : State} {j : Nat} (h : (rxByte b s).byteAt j ≠ s.byteAt j) :
    j = s.fcount.toNat := by
  by_contra hj
  have hu : (rxAccept b s).byteAt j = s.byteAt j := by rw [byteAt_rxAccept, if_neg hj]
  obtain ⟨-, e⟩ | ⟨-, e⟩ | ⟨-, e⟩ := rxByte_cases b s
  · rw [e] at h; exact h rfl
  · rw [e] at h; exact h hu
  · rw [e] at h
    exact h ((State.byteAt_congr (s := rxAccept b s) (by simp) (by simp) j).trans hu)

/-- Settles O30: FBUF stands in the table of writes for four commands, each with its own bound. -/
theorem commandsWriteOnlyTheirBytes : Obligations.CommandsWriteOnlyTheirBytes := by
  intro i s t h j hne
  have hw : WritesOnly i s t := exec_writesOnly h
  obtain ⟨ha, rfl⟩ | ⟨r, -, rfl⟩ := exec_next_cases h
  · cases i with
    | bufWrite b => exact .inl ⟨⟨b, rfl⟩, bufWrite_byteAt_ne hne⟩
    | frmEncode => exact .inr (.inl ⟨rfl, frmEncode_byteAt_ne hne⟩)
    | txByte b =>
      obtain ⟨hc, hf⟩ := exec_txByte_range h (error?_txOnly_eq_none_iff.mp ha)
      exact .inr (.inr (.inl ⟨⟨b, rfl⟩, Nat.lt_of_not_le fun hj => hne (txByte_byteAt_above hc hf hj)⟩))
    | rxByte b => exact .inr (.inr (.inr ⟨⟨b, rfl⟩, rxByte_byteAt_ne hne⟩))
    | nop | crcInit | crcStep _ | crcBulk _ | bufSetptr _ | bufRead | frmDecode | txStart | rxStart | rxEnd | abort =>
      exact absurd (State.byteAt_congr (congrArg State.draw hw) (congrArg State.fbuf hw) j) hne
  · exact absurd rfl hne

end Sys2Proof.Machine
end

section
/-! RESULT and the output stream are written and never read (10_state.md R16, R33, R120). Both statements follow from
one fact of every command: started from another RESULT and another output stream, it does the same and appends the
same items. -/

namespace Sys2Proof.Machine

/-- `s` with another RESULT and another output stream. -/
def State.withOutputs (s : State) (r : Result) (o : List Item) : State := { s with result := r, out := o }

/-- What `f` does in `s` depends neither on RESULT nor on the output stream: whatever they are, `f` gives the same
state, but for the stream, to which it appends the same items, and RESULT, which is then `after (f s)` of the one
before. -/
def OutputsUnread (after : State → Result → Result) (f : State → State) (s : State) : Prop :=
  ∃ items, ∀ r o, f (s.withOutputs r o) = (f s).withOutputs (after (f s) r) (o ++ items)

/-- A part of a command: RESULT stays what it was. -/
abbrev PartUnread : (State → State) → State → Prop := OutputsUnread fun _ r => r

/-- A command's own rule: RESULT is what the rule sets. -/
abbrev RuleUnread : (State → State) → State → Prop := OutputsUnread fun t _ => t.result

/-- An operation that emits nothing. -/
theorem OutputsUnread.of_silent {after : State → Result → Result} {f : State → State} {s : State}
    (h : ∀ r o, f (s.withOutputs r o) = (f s).withOutputs (after (f s) r) o) : OutputsUnread after f s :=
  ⟨[], fun r o => by rw [List.append_nil, h]⟩

/-- A check that reads neither output picks the branch. -/
theorem OutputsUnread.ite {after : State → Result → Result} {c : State → Prop} [DecidablePred c] {f g : State → State}
    {s : State} (hc : ∀ r o, c (s.withOutputs r o) ↔ c s) (hf : OutputsUnread after f s)
    (hg : OutputsUnread after g s) : OutputsUnread after (fun u => if c u then f u else g u) s := by
  by_cases h : c s
  · obtain ⟨items, hf⟩ := hf
    exact ⟨items, fun r o => by simp only [if_pos ((hc r o).mpr h), if_pos h]; exact hf r o⟩
  · obtain ⟨items, hg⟩ := hg
    exact ⟨items, fun r o => by simp only [if_neg (mt (hc r o).mp h), if_neg h]; exact hg r o⟩

theorem PartUnread.comp {f g : State → State} {s : State} (hf : PartUnread f s) (hg : PartUnread g (f s)) :
    PartUnread (fun u => g (f u)) s := by
  obtain ⟨xs, hf⟩ := hf
  obtain ⟨ys, hg⟩ := hg
  refine ⟨xs ++ ys, fun r o => ?_⟩
  calc g (f (s.withOutputs r o)) = g ((f s).withOutputs r (o ++ xs)) := congrArg g (hf r o)
    _ = (g (f s)).withOutputs r (o ++ (xs ++ ys)) := by rw [hg, List.append_assoc]

/-- A rule ends by setting RESULT. -/
theorem PartUnread.setResult {f : State → State} {s : State} (hf : PartUnread f s) (x : Result) :
    RuleUnread (fun u => (f u).setResult x) s := by
  obtain ⟨items, hf⟩ := hf
  exact ⟨items, fun r o => congrArg (·.setResult x) (hf r o)⟩

theorem fail_unread (x : Result) (s : State) : RuleUnread (·.fail x) s := .of_silent fun _ _ => rfl

/-- The mode's check reads neither output. -/
theorem RuleUnread.accepted {run : State → State} {s : State} (h : RuleUnread run s) (a : Access) :
    RuleUnread (·.accepted a run) s := by
  unfold State.accepted
  cases ha : a.error? s.mode with
  | none =>
    obtain ⟨items, h⟩ := h
    exact ⟨items, fun r o => by simpa only [State.withOutputs, ha] using h r o⟩
  | some x =>
    obtain ⟨items, h⟩ := fail_unread x s
    exact ⟨items, fun r o => by simpa only [State.withOutputs, ha] using h r o⟩

/-! ## The parts of the commands -/

theorem txAccept_unread (b : Byte) (s : State) : PartUnread (txAccept b) s := .of_silent fun _ _ => rfl

theorem txBuilt_withOutputs (s : State) (r : Result) (o : List Item) :
    txBuilt (s.withOutputs r o) = (txBuilt s).withOutputs r o := rfl

theorem txFrameComplete_unread (s : State) : PartUnread txFrameComplete s := by
  have heq (u : State) : txFrameComplete u = txNextFrame ((txBuilt u).emit
      (((txBuilt u).bytesFrom 0 (u.capacity + 6)).map Item.data ++ [.event (.txFrame u.txIndex u.fcount)])) := rfl
  refine ⟨((txBuilt s).bytesFrom 0 (s.capacity + 6)).map Item.data ++ [.event (.txFrame s.txIndex s.fcount)],
    fun r o => ?_⟩
  rw [heq, heq, txBuilt_withOutputs]
  rfl

theorem txFinish_unread (s : State) : PartUnread txFinish s :=
  ⟨[.event (.txDone (BitVec.ofNat 17 s.framesNeeded))], fun _ _ => rfl⟩

theorem rxAccept_unread (b : Byte) (s : State) : PartUnread (rxAccept b) s := .of_silent fun _ _ => rfl

theorem rxVerdict_unread (k : FrameCheck) (s : State) : PartUnread (rxVerdict k) s :=
  .ite (c := fun _ => (!k.ok) = true) (fun _ _ => Iff.rfl) ⟨[_], fun _ _ => rfl⟩ <|
    .ite (c := fun u => (!admits k.idx u.expected u.allowSkip) = true) (fun _ _ => Iff.rfl)
      ⟨[.event (.rxSeqReject k.idx s.expected)], fun _ _ => rfl⟩ <|
      .ite (c := fun u => u.capacity < k.len.toNat) (fun _ _ => Iff.rfl) ⟨[_], fun _ _ => rfl⟩
        ⟨(s.bytesFrom 4 k.len.toNat).map Item.data ++ [Item.event (.rxAccept k.idx k.len)], fun _ _ => rfl⟩

/-- FrameComplete reads the frame, CONFIG and EXPECTED. -/
theorem rxFrameComplete_unread (s : State) : PartUnread rxFrameComplete s := by
  obtain ⟨items, h⟩ := rxVerdict_unread s.frameCheck (checkFrame s)
  exact ⟨items, h⟩

/-! ## The commands' own rules -/

theorem txStart_unread (s : State) : RuleUnread txStart s :=
  .ite (c := fun u => (!u.configValid) = true) (fun _ _ => Iff.rfl) (fail_unread _ s) <|
    .ite (c := fun u => Config.maxFrames < u.framesNeeded) (fun _ _ => Iff.rfl) (fail_unread _ s) <|
      .ite (c := fun u => u.txTotal = 0) (fun _ _ => Iff.rfl) ⟨[_], fun _ _ => rfl⟩ (.of_silent fun _ _ => rfl)

theorem txByte_unread (b : Byte) (s : State) : RuleUnread (txByte b) s := by
  have hu : PartUnread (txAccept b) s := txAccept_unread b s
  have hv : PartUnread (fun u => txFrameComplete (txAccept b u)) s := hu.comp (txFrameComplete_unread _)
  exact .ite (c := fun u => (txAccept b u).fcount.toNat = (txAccept b u).capacity ∨ (txAccept b u).txRemain = 0)
    (fun _ _ => Iff.rfl)
    (.ite (c := fun u => (txAccept b u).txRemain = 0) (fun _ _ => Iff.rfl)
      ((hv.comp (txFinish_unread _)).setResult .ok) (hv.setResult .ok))
    (hu.setResult .ok)

/-- RX_BYTE's choice between separator and frame byte, as a check. -/
theorem rxByte_eq (b : Byte) :
    rxByte b = fun u => if u.phase = .separator then { u with phase := .frame }.done
      else if (rxAccept b u).fcount = u.frameSize then (rxFrameComplete (rxToSeparator (rxAccept b u))).done
      else (rxAccept b u).done := by
  funext u
  unfold rxByte
  cases u.phase with
  | separator => exact (if_pos rfl).symm
  | frame => exact (if_neg (by simp)).symm

theorem rxByte_unread (b : Byte) (s : State) : RuleUnread (rxByte b) s := by
  rw [rxByte_eq]
  have hu : PartUnread (rxAccept b) s := rxAccept_unread b s
  have hv : PartUnread (fun u => rxToSeparator (rxAccept b u)) s := .of_silent fun _ _ => rfl
  exact .ite (fun _ _ => Iff.rfl) (.of_silent fun _ _ => rfl) <|
    .ite (fun _ _ => Iff.rfl) ((hv.comp (rxFrameComplete_unread _)).setResult .ok) (hu.setResult .ok)

theorem rxEnd_unread (s : State) : RuleUnread rxEnd s := by
  unfold RuleUnread OutputsUnread rxEnd
  cases hp : s.phase with
  | frame => exact ⟨[.event (.rxEnd s.fcount)], fun _ _ => by simp only [State.withOutputs, hp]; rfl⟩
  | separator => exact ⟨[.event (.rxEnd 0)], fun _ _ => by simp only [State.withOutputs, hp]; rfl⟩

/-- No command's own rule reads RESULT or the output stream. -/
theorem commandRule_unread (i : Instr) (s : State) : RuleUnread (commandRule i) s := by
  cases i with
  | crcBulk n =>
    exact .ite (c := fun u => u.params.fbufSize < u.bptr.toNat + n.toNat) (fun _ _ => Iff.rfl) (fail_unread _ s)
      (.of_silent fun _ _ => rfl)
  | bufWrite b =>
    exact .ite (c := fun u => u.bptrInRange = true) (fun _ _ => Iff.rfl) (.of_silent fun _ _ => rfl) (fail_unread _ s)
  | bufRead =>
    exact .ite (c := fun u => u.bptrInRange = true) (fun _ _ => Iff.rfl) (.of_silent fun _ _ => rfl) (fail_unread _ s)
  | frmEncode =>
    exact .ite (c := fun u => (!u.configValid) = true) (fun _ _ => Iff.rfl) (fail_unread _ s) <|
      .ite (c := fun u => u.capacity < u.txLength.toNat) (fun _ _ => Iff.rfl) (fail_unread _ s)
        (.of_silent fun _ _ => rfl)
  | frmDecode =>
    exact .ite (c := fun u => (!u.configValid) = true) (fun _ _ => Iff.rfl) (fail_unread _ s)
      (.of_silent fun _ _ => rfl)
  | rxStart =>
    exact .ite (c := fun u => (!u.configValid) = true) (fun _ _ => Iff.rfl) (fail_unread _ s)
      (.of_silent fun _ _ => rfl)
  | txStart => exact txStart_unread s
  | txByte b => exact txByte_unread b s
  | rxByte b => exact rxByte_unread b s
  | rxEnd => exact rxEnd_unread s
  | nop | crcInit | crcStep _ | bufSetptr _ | abort => exact .of_silent fun _ _ => rfl

/-! ## Commands and command words -/

/-- What a command answers is one fault, or one state but for the stream it came with. -/
theorem exec_unread (i : Instr) (s : State) :
    (∃ f, ∀ r o, exec i (s.withOutputs r o) = .fault f) ∨
      ∃ (t : State) (items : List Item), ∀ r o, exec i (s.withOutputs r o) = .next (t.withOutputs t.result (o ++ items)) := by
  obtain ⟨⟨b, rfl⟩, hm, hr, -⟩ | ⟨⟨b, rfl⟩, hm, hr, -⟩ | ⟨htx, hrx, -⟩ := exec_cases i s
  · exact .inl ⟨.encodeSessionOutOfRange, fun r o => (exec_eq_fault_iff _ _ _).mpr (.inl ⟨rfl, ⟨b, rfl⟩, hm, hr⟩)⟩
  · exact .inl ⟨.decodeSessionOutOfRange, fun r o => (exec_eq_fault_iff _ _ _).mpr (.inr ⟨rfl, ⟨b, rfl⟩, hm, hr⟩)⟩
  · obtain ⟨items, h⟩ := (commandRule_unread i s).accepted (commandGuard i)
    refine .inr ⟨s.accepted (commandGuard i) (commandRule i), items, fun r o => ?_⟩
    obtain ⟨⟨b, hi⟩, hm, hr, -⟩ | ⟨⟨b, hi⟩, hm, hr, -⟩ | ⟨-, -, e⟩ := exec_cases i (s.withOutputs r o)
    · exact absurd ((htx b hi hm).symm.trans hr) (by decide)
    · exact absurd ((hrx b hi hm).symm.trans hr) (by decide)
    · rw [e]; exact congrArg Host.Outcome.next (h r o)

theorem runCommand_unread (w : Word) (s : State) :
    (∃ f, ∀ r o, runCommand w (s.withOutputs r o) = .fault f) ∨
      ∃ (t : State) (items : List Item), ∀ r o, runCommand w (s.withOutputs r o) = .next (t.withOutputs t.result (o ++ items)) := by
  cases hd : decode w with
  | ok i => simpa only [runCommand_ok hd] using exec_unread i s
  | error e =>
    refine .inr ⟨s.setResult .errOpcode, [], fun r o => ?_⟩
    rw [runCommand_error hd, List.append_nil]
    rfl

/-- Settles O23: two states that differ in RESULT are the same state with two RESULTs. -/
theorem commandsOverwriteResultUnread : Obligations.CommandsOverwriteResultUnread := by
  intro w s r
  obtain ⟨f, h⟩ | ⟨t, items, h⟩ := runCommand_unread w s
  · exact (h r s.out).trans (h s.result s.out).symm
  · exact (h r s.out).trans (h s.result s.out).symm

/-! ## Every transaction -/

/-- `f` takes `s` to `t` by appending some items to the output stream, and from any other stream it appends the same
items and does the same otherwise. -/
def Appends (f : State → Host.Outcome State Fault Refusal) (s t : State) : Prop :=
  ∃ items, t.out = s.out ++ items ∧ ∀ o : List Item, f { s with out := o } = .next { t with out := o ++ items }

theorem Appends.of_silent {f : State → Host.Outcome State Fault Refusal} {s t : State} (hout : t.out = s.out)
    (h : ∀ o, f { s with out := o } = .next { t with out := o }) : Appends f s t :=
  ⟨[], by rw [hout, List.append_nil], fun o => by rw [List.append_nil]; exact h o⟩

theorem runCommand_appends {w : Word} {s t : State} (h : runCommand w s = .next t) : Appends (runCommand w) s t := by
  obtain ⟨f, hu⟩ | ⟨u, items, hu⟩ := runCommand_unread w s
  · exact absurd (h.symm.trans (hu s.result s.out)) (by simp)
  · obtain rfl : t = u.withOutputs u.result (s.out ++ items) :=
      Host.Outcome.next.inj (h.symm.trans (hu s.result s.out))
    exact ⟨items, rfl, fun o => hu s.result o⟩

/-- A register write neither reads the output stream nor adds to it (R96). -/
theorem writeReg_withOut (s : State) (off : Byte) (v : Word) (o : List Item) :
    State.writeReg { s with out := o } off v = { s.writeReg off v with out := o } := by
  unfold State.writeReg
  dsimp only
  split_ifs
  · rfl
  · rfl
  · unfold State.storeReg; split <;> rfl

theorem transact_appends {x : Txn} {s t : State} (h : transact x s = .next t) : Appends (transact x) s t := by
  cases x with
  | reset => cases h; exact .of_silent rfl fun _ => rfl
  | rd off => cases h; exact .of_silent rfl fun _ => rfl
  | wr off v =>
    by_cases ho : off = cmdOffset
    · subst ho
      obtain ⟨items, hout, ha⟩ := runCommand_appends ((transact_cmd v s).symm.trans h)
      exact ⟨items, hout, fun o => (transact_cmd v _).trans (ha o)⟩
    · rw [transact_wr ho] at h
      cases h
      exact .of_silent (congrArg State.out (writeReg_withOut s off v s.out) :)
        fun o => by rw [transact_wr ho, writeReg_withOut]

/-- A step with a silent host appends nothing, and any other is its transaction. -/
theorem step_appends {s t : State} (h : step s = .next t) : Appends step s t := by
  cases hh : s.host with
  | nil =>
    rw [step_of_idle_host hh] at h
    cases h
    exact Appends.of_silent rfl fun o => step_of_idle_host (s := { s with out := o }) hh
  | cons x rest =>
    rw [step_of_host hh] at h
    obtain ⟨items, hout, ha⟩ := transact_appends h
    exact ⟨items, hout, fun o => (step_of_host (s := { s with out := o }) hh).trans (ha o)⟩

/-- Settles O24: every transaction appends. -/
theorem outputStreamIsAppendOnly : Obligations.OutputStreamIsAppendOnly := fun _ _ h => step_appends h

end Sys2Proof.Machine
end

section
/-! What the data fields hold: the buffer's canonical form (assumption log 6), the draws of a reset (10_state.md R32),
and a register written and read back (R14). -/

namespace Sys2Proof.Machine

/-! ## The canonical form of FBUF -/

theorem MemoryLaws.mem_of_find {m : List Host.Cell} {i : Nat} {b : Byte} (h : Memory.find? m i = some b) :
    (i, b) ∈ m := by
  induction m with
  | nil => simp [Memory.find?] at h
  | cons c m ih =>
    rw [Memory.find?] at h
    split_ifs at h with hc
    · obtain rfl : c.2 = b := Option.some.inj h
      subst hc
      exact List.mem_cons_self
    · exact List.mem_cons_of_mem c (ih h)

/-- The cells of a canonical list are the indices that do not read as their draw. -/
theorem MemoryLaws.mem_iff_read {draw : List Byte} {m : List Host.Cell} (h : Memory.wf draw m) (c : Host.Cell) :
    c ∈ m ↔ Memory.read draw m c.1 = c.2 ∧ c.2 ≠ Memory.fresh draw c.1 := by
  constructor
  · intro hc
    exact ⟨by simp [Memory.read, MemoryLaws.find_of_mem h.1 hc], h.2 c hc⟩
  · rintro ⟨hr, hne⟩
    unfold Memory.read at hr
    cases hf : Memory.find? m c.1 with
    | none => rw [hf] at hr; exact absurd hr.symm hne
    | some b =>
      obtain rfl : b = c.2 := by simpa [hf] using hr
      exact mem_of_find hf

/-- Settles O31: the reads determine the cells, and their rising order determines the list. -/
theorem equalBuffersAreEqualData : Obligations.EqualBuffersAreEqualData := by
  intro draw m n hm hn hread
  have hirrefl : Std.Irrefl (fun c d : Host.Cell => c.1 < d.1) := ⟨fun c => Nat.lt_irrefl c.1⟩
  have hanti : Std.Antisymm (fun c d : Host.Cell => c.1 < d.1) := ⟨fun _ _ h h' => absurd h (Nat.lt_asymm h')⟩
  refine List.Pairwise.eq_of_mem_iff hm.1 hn.1 fun c => ?_
  rw [MemoryLaws.mem_iff_read hm, MemoryLaws.mem_iff_read hn, hread]

/-! ## The draws of a reset -/

theorem State.byteAt_of_fbuf_nil {s : State} (h : s.fbuf = []) (i : Nat) : s.byteAt i = Memory.fresh s.draw i := by
  unfold State.byteAt; rw [h]; rfl

/-- Settles O14: no cell is listed after a reset, so every index reads as its draw. -/
theorem resetDrawsTheFrameBufferAnew : Obligations.ResetDrawsTheFrameBufferAnew := by
  refine ⟨⟨rfl, rfl, rfl, fun i hi => ?_⟩, fun s rest hh => ?_⟩
  · exact (State.byteAt_of_fbuf_nil rfl i).trans (fresh_resetDraw 0 hi)
  · refine ⟨(s.issued rest).platformReset, step_of_host hh, rfl, length_resetDraw _ _, rfl, rfl, rfl, rfl,
      fun i hi => ?_⟩
    exact (State.byteAt_of_fbuf_nil rfl i).trans (fresh_resetDraw (s.resets + 1) hi)

/-! ## A register written and read back -/

/-- A mask of the low `k` bits keeps a word's remainder. -/
theorem toNat_and_lowMask (v : Word) {k : Nat} (hk : k ≤ 32) :
    (v &&& BitVec.ofNat 32 (2 ^ k - 1)).toNat = v.toNat % 2 ^ k := by
  have hlt : 2 ^ k - 1 < 2 ^ 32 :=
    Nat.lt_of_lt_of_le (Nat.sub_lt (Nat.two_pow_pos k) (by decide)) (Nat.pow_le_pow_right (by decide) hk)
  rw [BitVec.toNat_and, BitVec.toNat_ofNat, Nat.mod_eq_of_lt hlt, Nat.and_two_pow_sub_one_eq_mod]

theorem toNat_lowHalf (v : Word) : (lowHalf v).toNat = v.toNat % 2 ^ 16 := by simp [lowHalf]

/-- One bit of a word, as a number. -/
theorem toNat_getLsbD (v : Word) (k : Nat) : (v.getLsbD k).toNat = v.toNat / 2 ^ k % 2 := by
  rw [getLsbD_eq_div_mod]
  obtain h | h := Nat.mod_two_eq_zero_or_one (v.toNat / 2 ^ k) <;> rw [h] <;> rfl

theorem setWidth_lowHalf (v : Word) : (lowHalf v).setWidth 32 = v &&& 0x0000FFFF := by
  apply BitVec.eq_of_toNat_eq
  rw [show (0x0000FFFF : Word) = BitVec.ofNat 32 (2 ^ 16 - 1) from rfl, toNat_and_lowMask v (by decide),
    BitVec.toNat_setWidth_of_le (by decide), toNat_lowHalf]

theorem SeqMode.toNat_bit_ofBit (b : Bool) : (SeqMode.ofBit b).bit.toNat = b.toNat := by cases b <;> rfl

/-- CONFIG's word after its fields are written from `v`: bits 17..0 of `v` (R19). -/
theorem configWord_storeReg (s : State) (v : Word) : (s.storeReg 0x08 v).configWord = v &&& 0x0003FFFF := by
  apply BitVec.eq_of_toNat_eq
  rw [show (0x0003FFFF : Word) = BitVec.ofNat 32 (2 ^ 18 - 1) from rfl, toNat_and_lowMask v (by decide)]
  show (((SeqMode.ofBit (v.getLsbD 17)).bit ++ BitVec.ofBool (v.getLsbD 16) ++ lowHalf v).setWidth 32).toNat = _
  rw [toNat_append_setWidth (by decide), toNat_append_eq, SeqMode.toNat_bit_ofBit, BitVec.toNat_ofBool,
    toNat_getLsbD, toNat_getLsbD, toNat_lowHalf]
  omega

/-- A RW register reads back the bits of its fields (R14). -/
theorem readReg_storeReg {off : Byte} {mask : Word} (h : (off, mask) ∈ ([(0x08, 0x0003FFFF), (0x0C, 0x0000FFFF),
      (0x10, 0x0000FFFF), (0x18, 0x0000FFFF), (0x1C, 0x0000FFFF), (0x20, 0xFFFFFFFF)] : List (Byte × Word)))
    (s : State) (v : Word) : writableOffset off = true ∧ (s.storeReg off v).readReg off = v &&& mask := by
  simp only [List.mem_cons, Prod.mk.injEq, List.not_mem_nil, or_false] at h
  obtain ⟨rfl, rfl⟩ | ⟨rfl, rfl⟩ | ⟨rfl, rfl⟩ | ⟨rfl, rfl⟩ | ⟨rfl, rfl⟩ | ⟨rfl, rfl⟩ := h
  · exact ⟨rfl, configWord_storeReg s v⟩
  · exact ⟨rfl, setWidth_lowHalf v⟩
  · exact ⟨rfl, setWidth_lowHalf v⟩
  · exact ⟨rfl, setWidth_lowHalf v⟩
  · exact ⟨rfl, setWidth_lowHalf v⟩
  · exact ⟨rfl, (BitVec.and_allOnes (x := v)).symm⟩

/-- An accepted register write leaves RESULT, the output stream and the host's side (R96). -/
theorem storeReg_frame (s : State) (off : Byte) (v : Word) :
    (s.storeReg off v).host = s.host ∧ (s.storeReg off v).reads = s.reads ∧ (s.storeReg off v).result = s.result ∧
      (s.storeReg off v).out = s.out := by
  obtain ⟨-, e⟩ | ⟨-, e⟩ | ⟨-, e⟩ | ⟨-, e⟩ | ⟨-, e⟩ | ⟨-, e⟩ | ⟨-, e⟩ := storeReg_cases s off v <;> rw [e] <;>
    exact ⟨rfl, rfl, rfl, rfl⟩

/-- Settles O11: the write stores the fields, and the read packs them again. -/
theorem writtenRegisterReadsBackItsFields : Obligations.WrittenRegisterReadsBackItsFields := by
  intro s rest off v mask hm hmask hh
  obtain ⟨hw, hread⟩ := readReg_storeReg hmask (s.issued (.rd off :: rest)) v
  obtain ⟨hhost, hreads, hresult, hout⟩ := storeReg_frame (s.issued (.rd off :: rest)) off v
  set u := (s.issued (.rd off :: rest)).storeReg off v
  have hne : off ≠ cmdOffset := by rintro rfl; exact absurd hw (by decide)
  have hwrite : step s = .next u := by
    rw [step_of_host hh, transact_wr hne]
    obtain ⟨hn, -⟩ | ⟨-, hn, -⟩ | ⟨-, -, e⟩ := writeReg_cases (s.issued (.rd off :: rest)) off v
    · exact absurd (hw.symm.trans hn) (by decide)
    · exact absurd hm hn
    · rw [e]
  have hthen : step u = .next ((u.issued rest).readTransaction off) := step_of_host hhost
  refine ⟨(u.issued rest).readTransaction off, ?_, rfl, ?_, hresult, hout⟩
  · rw [run_succ 1 hwrite, run_succ 0 hthen, run_zero]
  · show u.reads ++ [u.readReg off] = s.reads ++ [v &&& mask]
    rw [hread, hreads]
    rfl

end Sys2Proof.Machine
end

section
/-! The command encoding (30_encoding.md R49 to R56): the fields a format's mask fixes, the words the decoder accepts and
those it refuses, and the word of an assembled line. -/

namespace Sys2Proof

/-! ## A word under its format's mask -/

/-- A word is known by its three fields (R49). -/
theorem word_ext {v w : Word} (hop : wordOp v = wordOp w) (hb : wordB v = wordB w) (hh : wordH v = wordH w) : v = w := by
  rw [← assembleWord_fields v, hop, hb, hh, assembleWord_fields]

theorem assembleWord_zero (c : Byte) : assembleWord c 0 0 = c.setWidth 32 := by simp [assembleWord]

@[simp] theorem wordOp_and_mask (w : Word) (f : Format) : wordOp (w &&& f.mask) = wordOp w := by
  cases f <;> exact BitVec.extractLsb'_and.trans BitVec.and_allOnes

@[simp] theorem wordB_and_mask (w : Word) (f : Format) :
    wordB (w &&& f.mask) = if f = .b then 0 else wordB w := by
  cases f
  · exact BitVec.extractLsb'_and.trans BitVec.and_allOnes
  · exact BitVec.extractLsb'_and.trans BitVec.and_zero
  · exact BitVec.extractLsb'_and.trans BitVec.and_allOnes

@[simp] theorem wordH_and_mask (w : Word) (f : Format) :
    wordH (w &&& f.mask) = if f = .h then 0 else wordH w := by
  cases f
  · exact BitVec.extractLsb'_and.trans BitVec.and_allOnes
  · exact BitVec.extractLsb'_and.trans BitVec.and_allOnes
  · exact BitVec.extractLsb'_and.trans BitVec.and_zero

/-- Under its format's mask a word is an opcode alone exactly when it has that OP value and its fields that are no operand
of the format are 0 (R50, R53). -/
theorem and_mask_eq_iff {w : Word} {f : Format} {c : Byte} :
    w &&& f.mask = c.setWidth 32 ↔ wordOp w = c ∧ (f ≠ .b → wordB w = 0) ∧ (f ≠ .h → wordH w = 0) := by
  rw [← assembleWord_zero c]
  constructor
  · intro h
    have hop := congrArg wordOp h
    have hb := congrArg wordB h
    have hh := congrArg wordH h
    simp only [wordOp_and_mask, wordB_and_mask, wordH_and_mask, wordOp_assembleWord, wordB_assembleWord,
      wordH_assembleWord, ite_eq_left_iff] at hop hb hh
    exact ⟨hop, hb, hh⟩
  · rintro ⟨hop, hb, hh⟩
    apply word_ext
    · simpa using hop
    · simpa using hb
    · simpa using hh

/-! ## Commands and their opcodes -/

theorem Op.instr_fields (i : Instr) : i.op.instr i.fieldB i.fieldH = i := by cases i <;> rfl

@[simp] theorem Op.instr_op (op : Op) (b : Byte) (h : Half) : (op.instr b h).op = op := by cases op <;> rfl

/-- A command keeps the B operand it is given in format B alone. -/
@[simp] theorem Op.instr_fieldB (op : Op) (b : Byte) (h : Half) :
    (op.instr b h).fieldB = if op.format = .b then b else 0 := by cases op <;> rfl

/-- A command keeps the H operand it is given in format H alone. -/
@[simp] theorem Op.instr_fieldH (op : Op) (b : Byte) (h : Half) :
    (op.instr b h).fieldH = if op.format = .h then h else 0 := by cases op <;> rfl

theorem Op.code_injective {p q : Op} (h : p.code = q.code) : p = q :=
  Option.some.inj (by rw [← ofCode?_code p, h, ofCode?_code])

/-- Every command's word fits its row of the opcode map: the families of Laws/PerInstr.lean together. -/
theorem encode_and_mask (i : Instr) : encode i &&& i.op.format.mask = i.op.code.setWidth 32 :=
  match i with
  | .nop => Laws.EncodeFits.nop
  | .crcInit => Laws.EncodeFits.crcInit
  | .crcStep b => Laws.EncodeFits.crcStep b
  | .crcBulk n => Laws.EncodeFits.crcBulk n
  | .bufSetptr a => Laws.EncodeFits.bufSetptr a
  | .bufWrite b => Laws.EncodeFits.bufWrite b
  | .bufRead => Laws.EncodeFits.bufRead
  | .frmEncode => Laws.EncodeFits.frmEncode
  | .frmDecode => Laws.EncodeFits.frmDecode
  | .txStart => Laws.EncodeFits.txStart
  | .txByte b => Laws.EncodeFits.txByte b
  | .rxStart => Laws.EncodeFits.rxStart
  | .rxByte b => Laws.EncodeFits.rxByte b
  | .rxEnd => Laws.EncodeFits.rxEnd
  | .abort => Laws.EncodeFits.abort

/-! ## Decoding and encoding -/

/-- Settles O1: the assembled word fits its row, so the decoder takes it, and gives back its three fields. -/
theorem decodeUndoesEncode : Obligations.DecodeUndoesEncode := by
  intro i
  have hop : i.op.code = wordOp (encode i) := (wordOp_assembleWord _ _ _).symm
  rw [decode_of_mask hop (encode_and_mask i), encode, wordB_assembleWord, wordH_assembleWord, Op.instr_fields]

/-- Settles O2: the mask leaves an accepted word no bit outside the OP value and the operand that its command keeps. -/
theorem encodeUndoesDecode : Obligations.EncodeUndoesDecode := by
  intro w i h
  obtain ⟨op, hop, hm, rfl⟩ := decode_ok_cases h
  obtain ⟨-, hb, hh⟩ := and_mask_eq_iff.mp hm
  apply word_ext
  · simpa [encode] using hop
  · simpa [encode, eq_comm] using hb
  · simpa [encode, eq_comm] using hh

/-! ## The opcode map -/

/-- The match and mask columns of an opcode's row (R52). -/
def Op.row (op : Op) : Word × Word := (op.code.setWidth 32, op.format.mask)

/-- The printed rows are those of the fifteen opcodes. -/
theorem mem_opcodeRows_iff {r : Word × Word} : r ∈ opcodeRows ↔ ∃ op : Op, op.row = r := by
  constructor
  · have hrows : opcodeRows = List.map Op.row [.nop, .crcInit, .crcStep, .crcBulk, .bufSetptr, .bufWrite, .bufRead,
        .frmEncode, .frmDecode, .txStart, .txByte, .rxStart, .rxByte, .rxEnd, .abort] := rfl
    rw [hrows, List.mem_map]
    rintro ⟨op, -, rfl⟩
    exact ⟨op, rfl⟩
  · rintro ⟨op, rfl⟩
    cases op <;> decide

/-- A word that matches an opcode's row has its OP value. -/
theorem wordOp_of_row {w : Word} {op : Op} (h : w &&& op.row.2 = op.row.1) : wordOp w = op.code :=
  (and_mask_eq_iff.mp h).1

/-- The words that decode are those that match the row of an opcode (R53). -/
theorem decode_isOk_iff (w : Word) : (∃ i, decode w = .ok i) ↔ ∃ op : Op, w &&& op.row.2 = op.row.1 := by
  constructor
  · rintro ⟨i, h⟩
    obtain ⟨op, -, hm, -⟩ := decode_ok_cases h
    exact ⟨op, hm⟩
  · rintro ⟨op, hm⟩
    exact ⟨_, decode_of_mask (wordOp_of_row hm).symm hm⟩

/-- Settles O3: the rows are those of the opcodes, and a word has one OP value. -/
theorem decodeAcceptsExactlyTheOpcodeMap : Obligations.DecodeAcceptsExactlyTheOpcodeMap := by
  intro w
  refine ⟨?_, fun r hr q hq hwr hwq => ?_⟩
  · rw [decode_isOk_iff]
    constructor
    · rintro ⟨op, hm⟩
      exact ⟨op.row, mem_opcodeRows_iff.mpr ⟨op, rfl⟩, hm⟩
    · rintro ⟨r, hr, hm⟩
      obtain ⟨op, rfl⟩ := mem_opcodeRows_iff.mp hr
      exact ⟨op, hm⟩
  · obtain ⟨p, rfl⟩ := mem_opcodeRows_iff.mp hr
    obtain ⟨o, rfl⟩ := mem_opcodeRows_iff.mp hq
    rw [Op.code_injective ((wordOp_of_row hwr).symm.trans (wordOp_of_row hwq))]

/-- Settles O4: each word is evaluated. -/
theorem wordsOfTheOpcodeMapDecode : Obligations.WordsOfTheOpcodeMapDecode :=
  ⟨rfl, rfl, rfl, rfl, rfl, rfl, rfl, rfl, rfl, rfl, rfl⟩

end Sys2Proof

namespace Sys2Proof.Machine

/-! ## A command word reaches the block -/

/-- A write to CMD is the next step (R55). -/
theorem step_of_cmd {s : State} {rest : List Txn} {w : Word} (h : s.host = .wr 0x00 w :: rest) :
    step s = runCommand w (s.issued rest) := (step_of_host h).trans (transact_cmd w _)

/-- Settles O7: the write is the step, and the word's command runs on the state that has issued it. -/
theorem stepRunsTheDecodedCommand : Obligations.StepRunsTheDecodedCommand :=
  fun _ _ _ _ hh hd => (step_of_cmd hh).trans (runCommand_ok hd _)

/-- The reserved ranges of OP values, lowest and highest value (R54). -/
def reservedRanges : List (Nat × Nat) :=
  [(0x01, 0x0F), (0x13, 0x1F), (0x23, 0x2F), (0x32, 0x3F), (0x42, 0x4F), (0x53, 0x5F), (0x61, 0xFF)]

theorem illegalWord_iff (w : Word) :
    IllegalWord w ↔ (∃ r ∈ reservedRanges, r.1 ≤ w.toNat % 256 ∧ w.toNat % 256 ≤ r.2) ∨
      ∃ r ∈ opcodeRows, w &&& 0xFF = r.1 ∧ w &&& r.2 ≠ r.1 := Iff.rfl

theorem code_not_reserved (op : Op) : ∀ r ∈ reservedRanges, ¬(r.1 ≤ op.code.toNat ∧ op.code.toNat ≤ r.2) := by
  cases op <;> decide

theorem toNat_wordOp (w : Word) : (wordOp w).toNat = w.toNat % 256 := by simp [wordOp]

/-- An accepted word is not illegal: its OP value is listed, and no bit its row requires to be 0 is set (R53, R54). -/
theorem not_illegalWord_of_decode {w : Word} {i : Instr} (h : decode w = .ok i) : ¬IllegalWord w := by
  obtain ⟨op, hop, hm, -⟩ := decode_ok_cases h
  rw [illegalWord_iff, ← toNat_wordOp, ← hop]
  rintro (⟨r, hr, hin⟩ | ⟨r, hr, hff, hne⟩)
  · exact code_not_reserved op r hr hin
  · obtain ⟨q, rfl⟩ := mem_opcodeRows_iff.mp hr
    obtain rfl : op = q := Op.code_injective (hop.trans (and_ff_iff.mp hff))
    exact hne hm

/-- Settles O5: an illegal word does not decode, so its step is the error alone. -/
theorem illegalWordSetsErrOpcodeOnly : Obligations.IllegalWordSetsErrOpcodeOnly := by
  intro s rest w hh hill
  cases hd : decode w with
  | ok i => exact absurd hill (not_illegalWord_of_decode hd)
  | error e => exact (step_of_cmd hh).trans (runCommand_error hd _)

/-! ## An assembled line -/

/-- The assembler's reader and the decoder agree on the formats. -/
theorem writtenFormat_eq (op : Op) : op.writtenFormat = op.format := by cases op <;> rfl

/-- The word of a command with given operands, of which the format keeps its own (R56). -/
theorem encode_instr (op : Op) (b : Byte) (h : Half) :
    encode (op.instr b h) =
      assembleWord op.code (if op.format = .b then b else 0) (if op.format = .h then h else 0) := by
  simp [encode]

/-- A command line assembles exactly when its format takes the written operand (R56). -/
theorem assemble_command (op : Op) (imm : Option Nat) :
    assemble (.command op imm) =
      if op.format.takes imm then
        some (issue (op.instr (BitVec.ofNat 8 (imm.getD 0)) (BitVec.ofNat 16 (imm.getD 0))))
      else none := by
  cases h : op.format.takes imm <;> simp [assemble, AsmLine.wellFormed, writtenFormat_eq, h]

/-- A byte operand in range is added at bit 8. -/
theorem assembleWord_ofNat_byte (c : Byte) {k : Nat} (hk : k < 256) :
    assembleWord c (BitVec.ofNat 8 k) 0 = BitVec.ofNat 32 (c.toNat + 256 * k) := by
  have hc := c.isLt
  apply BitVec.eq_of_toNat_eq
  simp only [toNat_assembleWord, BitVec.ofNat_eq_ofNat, BitVec.toNat_ofNat]
  omega

/-- A half operand is added at bit 16; the word has no bits above it for a number out of range. -/
theorem assembleWord_ofNat_half (c : Byte) (k : Nat) :
    assembleWord c 0 (BitVec.ofNat 16 k) = BitVec.ofNat 32 (c.toNat + 65536 * k) := by
  have hc := c.isLt
  apply BitVec.eq_of_toNat_eq
  simp only [toNat_assembleWord, BitVec.ofNat_eq_ofNat, BitVec.toNat_ofNat]
  omega

/-- Settles O6, format by format: the format takes the operand or not, and keeps it in its own field. -/
theorem assembledCommandIsItsWord : Obligations.AssembledCommandIsItsWord := by
  refine ⟨fun op hf => ?_, fun op hf => ?_, fun op hf => ?_⟩ <;> simp only [assemble_command, issue, encode_instr, hf]
  · exact ⟨congrArg (fun w => some (Txn.wr 0x00 w)) (assembleWord_zero op.code), fun _ => rfl⟩
  · refine ⟨rfl, fun k => ?_⟩
    by_cases hk : k < 256
    · rw [if_pos hk, ← assembleWord_ofNat_byte op.code hk]
      simp [Format.takes, hk, cmdOffset]
    · simp [Format.takes, hk]
  · refine ⟨rfl, fun k => ?_⟩
    by_cases hk : k < 65536
    · rw [if_pos hk, ← assembleWord_ofNat_half op.code k]
      simp [Format.takes, hk, cmdOffset]
    · simp [Format.takes, hk]

end Sys2Proof.Machine
end

section
/-! What the statements about single commands share: the illegal words of an opcode (30_encoding.md R54), and the
commands that IDLE alone accepts (60_exceptions.md R99). -/

namespace Sys2Proof.Machine

/-- A word with a listed OP value that decodes matches that opcode's row, so every other one is refused (R53, R54). -/
theorem illegalFormsRefused (op : Op) : IllegalFormsRefused (op.code.setWidth 32) op.format.mask := by
  intro w s hop hmask
  cases hd : decode w with
  | error e => exact runCommand_error hd s
  | ok i =>
    obtain ⟨q, hq, hm, -⟩ := decode_ok_cases hd
    obtain rfl : q = op := Op.code_injective (hq.trans (and_ff_iff.mp hop))
    exact absurd hm hmask

/-- A command that IDLE alone accepts never stops. -/
theorem exec_of_idleOnly {i : Instr} (hi : commandGuard i = .idleOnly) (s : State) :
    exec i s = .next (s.accepted .idleOnly (commandRule i)) := by
  obtain ⟨⟨b, rfl⟩, -⟩ | ⟨⟨b, rfl⟩, -⟩ | ⟨-, -, h⟩ := exec_cases i s
  · cases hi
  · cases hi
  · rw [h, hi]

/-- In IDLE it runs its own rule. -/
theorem exec_of_idle {i : Instr} (hi : commandGuard i = .idleOnly) {s : State} (hm : s.mode = .idle) :
    exec i s = .next (commandRule i s) := by
  rw [exec_of_idleOnly hi, State.accepted_of_none _ (error?_idleOnly_eq_none_iff.mpr hm)]

/-- In a session it reports ERR_BUSY and does nothing else. -/
theorem exec_of_busy {i : Instr} (hi : commandGuard i = .idleOnly) {s : State} (hm : s.mode ≠ .idle) :
    exec i s = .next { s with result := .errBusy } := by
  have herr : Access.idleOnly.error? s.mode = some .errBusy := by rw [error?_idleOnly, if_neg hm]
  rw [exec_of_idleOnly hi, State.accepted_of_some _ herr]
  rfl

end Sys2Proof.Machine
end

section
/-! The CRC engine's functions (40_crc.md R58 to R63). A round is linear over GF(2) and divides one
coefficient out by the generator, the two bit orders are mirror images, and a round loses nothing of the state, so a fold
shows every change that two neighbouring bytes hold. -/

namespace Sys2Proof.Machine

/-! ## A step as eight rounds on the state with its byte xored in -/

theorem repeatTimes_eq_iterate (f : Half → Half) (n : Nat) (c : Half) : repeatTimes f n c = f^[n] c := by
  induction n generalizing c with
  | zero => rfl
  | succ n ih => exact ih (f c)

/-- The round of either bit order (R59). -/
def crcRound (p : Config.Params) : Half → Half :=
  if p.crcReflect then crcRoundLsb (rev16 p.crcPoly) else crcRoundMsb p.crcPoly

/-- A byte where the bit order has it meet the state: at the top, or at the bottom (R59). -/
def crcAligned (p : Config.Params) (b : Byte) : Half :=
  if p.crcReflect then b.setWidth 16 else b.setWidth 16 <<< 8

theorem crcStep_eq_iterate (p : Config.Params) (c : Half) (b : Byte) :
    crcStep p c b = (crcRound p)^[8] (c ^^^ crcAligned p b) := by
  unfold crcStep crcRound crcAligned
  split_ifs <;> exact repeatTimes_eq_iterate _ _ _

theorem crcRoundMsb_eq_xor (poly c : Half) :
    crcRoundMsb poly c = c <<< 1 ^^^ if c.getLsbD 15 then poly else 0 := by
  unfold crcRoundMsb
  split_ifs <;> simp

theorem crcRoundLsb_eq_xor (q c : Half) : crcRoundLsb q c = c >>> 1 ^^^ if c.getLsbD 0 then q else 0 := by
  unfold crcRoundLsb
  split_ifs <;> simp

/-! ## Linearity over GF(2) (R63) -/

/-- A constant taken or left by a bit is linear in the bit. -/
theorem ite_xor (a b : Bool) (k : Half) :
    (if (a ^^ b) then k else 0) = (if a then k else 0) ^^^ if b then k else 0 := by
  cases a <;> cases b <;> simp

theorem crcRoundMsb_xor (poly c d : Half) :
    crcRoundMsb poly (c ^^^ d) = crcRoundMsb poly c ^^^ crcRoundMsb poly d := by
  simp only [crcRoundMsb_eq_xor, BitVec.getLsbD_xor, ite_xor, BitVec.shiftLeft_xor_distrib]
  ac_rfl

theorem crcRoundLsb_xor (q c d : Half) : crcRoundLsb q (c ^^^ d) = crcRoundLsb q c ^^^ crcRoundLsb q d := by
  simp only [crcRoundLsb_eq_xor, BitVec.getLsbD_xor, ite_xor, BitVec.ushiftRight_xor_distrib]
  ac_rfl

theorem crcRound_xor (p : Config.Params) (c d : Half) : crcRound p (c ^^^ d) = crcRound p c ^^^ crcRound p d := by
  unfold crcRound
  split_ifs
  · exact crcRoundLsb_xor _ c d
  · exact crcRoundMsb_xor _ c d

/-- A linear function stays linear when it is repeated. -/
theorem iterate_xor {f : Half → Half} (hf : ∀ c d, f (c ^^^ d) = f c ^^^ f d) (n : Nat) (c d : Half) :
    f^[n] (c ^^^ d) = f^[n] c ^^^ f^[n] d := by
  induction n generalizing c d with
  | zero => rfl
  | succ n ih => simp only [Function.iterate_succ_apply, hf, ih]

theorem crcAligned_xor (p : Config.Params) (x y : Byte) :
    crcAligned p (x ^^^ y) = crcAligned p x ^^^ crcAligned p y := by
  unfold crcAligned
  split_ifs <;> simp only [BitVec.setWidth_xor, BitVec.shiftLeft_xor_distrib]

theorem crcStep_xor (p : Config.Params) (c d : Half) (x y : Byte) :
    crcStep p (c ^^^ d) (x ^^^ y) = crcStep p c x ^^^ crcStep p d y := by
  simp only [crcStep_eq_iterate, ← iterate_xor (crcRound_xor p), crcAligned_xor]
  congr 1
  ac_rfl

/-- Settles O36: each step is linear, byte by byte along the two streams. -/
theorem crcFoldIsLinear : Obligations.CrcFoldIsLinear := by
  intro p c d u v hlen
  induction u generalizing c d v with
  | nil =>
    obtain rfl := List.length_eq_zero_iff.mp hlen.symm
    rfl
  | cons x u ih =>
    cases v with
    | nil => cases hlen
    | cons y v =>
      simp only [List.zipWith_cons_cons, crcFold_cons, crcStep_xor]
      exact ih _ _ v (Nat.succ.inj hlen)

/-! ## Division by the generator (R58, R59) -/

/-- The generator `x^16 + CRC_POLY(x)` with its leading term (R58). -/
def crcGenerator (poly : Half) : BitVec 24 := (1 : BitVec 24) <<< 16 ||| poly.setWidth 24

/-- The product of a polynomial of `n` coefficients and `g` over GF(2), as a 24-bit word: `carrylessMul` for any `n`. -/
def carrylessProduct {n : Nat} (q : BitVec n) (g : BitVec 24) : BitVec 24 :=
  (List.range n).foldl (fun acc k => if q.getLsbD k then acc ^^^ (g <<< k) else acc) 0

theorem carrylessMul_eq_product (q : Byte) (g : BitVec 24) : carrylessMul q g = carrylessProduct q g := rfl

/-- A new leading coefficient adds one multiple of `g`. -/
theorem carrylessProduct_cons {n : Nat} (a : Bool) (q : BitVec n) (g : BitVec 24) :
    carrylessProduct (BitVec.cons a q) g = carrylessProduct q g ^^^ if a then g <<< n else 0 := by
  have hlow : ∀ acc : BitVec 24, ∀ k ∈ List.range n,
      (if (BitVec.cons a q).getLsbD k then acc ^^^ (g <<< k) else acc) =
        if q.getLsbD k then acc ^^^ (g <<< k) else acc := by
    intro acc k hk
    rw [BitVec.getLsbD_cons, if_neg (List.mem_range.mp hk).ne]
  unfold carrylessProduct
  rw [List.range_succ, List.foldl_append, List.foldl_ext _ _ _ hlow]
  cases a <;> simp [BitVec.getLsbD_cons]

/-- The generator's two parts share no bit. -/
theorem crcGenerator_eq_xor (poly : Half) : crcGenerator poly = BitVec.twoPow 24 16 ^^^ poly.setWidth 24 := by
  have htwoPow : crcGenerator poly = BitVec.twoPow 24 16 ||| poly.setWidth 24 := by rw [BitVec.twoPow_eq]; rfl
  refine BitVec.eq_of_getLsbD_eq fun i hi => ?_
  rw [htwoPow, BitVec.getLsbD_or, BitVec.getLsbD_xor, BitVec.getLsbD_twoPow]
  by_cases h : 16 = i
  · subst h; simp
  · simp [h]

/-- Shifted up in a wider word, a state is what its own register keeps, and `x^16` for the bit that leaves it. -/
theorem setWidth_shiftLeft_one (c : Half) :
    c.setWidth 24 <<< 1 = (if c.getLsbD 15 then BitVec.twoPow 24 16 else 0) ^^^ (c <<< 1).setWidth 24 := by
  have hleft (i : Nat) : (if c.getLsbD 15 then BitVec.twoPow 24 16 else 0).getLsbD i =
      (c.getLsbD 15 && decide (16 = i)) := by
    cases c.getLsbD 15
    · simp
    · rw [if_pos rfl, BitVec.getLsbD_twoPow]; rfl
  refine BitVec.eq_of_getLsbD_eq fun i hi => ?_
  rw [BitVec.getLsbD_xor, hleft]
  simp only [BitVec.getLsbD_shiftLeft, BitVec.getLsbD_setWidth]
  rcases lt_trichotomy i 16 with h | rfl | h
  · have hprev : i - 1 < 24 := by omega
    simp [h, h.ne', hi, hprev]
  · simp
  · simp [h.not_gt, h.ne, BitVec.getLsbD_of_ge c (i - 1) (by omega)]

/-- One round divides the next coefficient out: shifted up, the state is its round, with a multiple of the generator. -/
theorem shiftLeft_eq_generator_xor_round (poly c : Half) :
    c.setWidth 24 <<< 1 =
      (if c.getLsbD 15 then crcGenerator poly else 0) ^^^ (crcRoundMsb poly c).setWidth 24 := by
  rw [setWidth_shiftLeft_one, crcRoundMsb_eq_xor, BitVec.setWidth_xor, crcGenerator_eq_xor]
  cases c.getLsbD 15 with
  | false => simp
  | true =>
    simp only [if_true]
    rw [BitVec.xor_comm ((c <<< 1).setWidth 24) (poly.setWidth 24), BitVec.xor_assoc,
      ← BitVec.xor_assoc (poly.setWidth 24), BitVec.xor_self, BitVec.zero_xor]

/-- The quotient that `n` MSB-first rounds divide out: the bits that leave the state, the first one highest. -/
def crcQuotient (poly : Half) : (n : Nat) → Half → BitVec n
  | 0, _ => 0#0
  | n + 1, c => BitVec.cons (c.getLsbD 15) (crcQuotient poly n (crcRoundMsb poly c))

/-- `n` rounds are a division of `c · x^n` by the generator, with the state after them as the remainder. -/
theorem crcRoundMsb_iterate_division (poly : Half) (n : Nat) (c : Half) :
    c.setWidth 24 <<< n =
      carrylessProduct (crcQuotient poly n c) (crcGenerator poly) ^^^ ((crcRoundMsb poly)^[n] c).setWidth 24 := by
  induction n generalizing c with
  | zero => simp [carrylessProduct]
  | succ n ih =>
    rw [Nat.add_comm, BitVec.shiftLeft_add, shiftLeft_eq_generator_xor_round poly, BitVec.shiftLeft_xor_distrib, ih,
      Nat.add_comm, crcQuotient, carrylessProduct_cons, Function.iterate_succ_apply]
    cases c.getLsbD 15 <;> simp
    ac_rfl

theorem crcStep_eq_msb {p : Config.Params} (hr : p.crcReflect = false) (c : Half) (b : Byte) :
    crcStep p c b = (crcRoundMsb p.crcPoly)^[8] (c ^^^ b.setWidth 16 <<< 8) := by
  simp [crcStep_eq_iterate, crcRound, crcAligned, hr]

/-- Settles O34: the quotient is the eight bits that leave the state in the eight rounds. -/
theorem crcStepIsDivisionByTheGenerator : Obligations.CrcStepIsDivisionByTheGenerator := by
  intro p c b hr
  refine ⟨crcQuotient p.crcPoly 8 (c ^^^ b.setWidth 16 <<< 8), ?_⟩
  rw [crcStep_eq_msb hr, carrylessMul_eq_product]
  exact crcRoundMsb_iterate_division p.crcPoly 8 _

/-! ## The reflected engine (R59) -/

theorem reverse_xor {w : Nat} (x y : BitVec w) : (x ^^^ y).reverse = x.reverse ^^^ y.reverse := by
  ext i hi
  rw [BitVec.getElem_xor]
  simp only [BitVec.getElem_reverse, BitVec.getMsbD_xor]

theorem reverse_inj {w : Nat} {x y : BitVec w} : x.reverse = y.reverse ↔ x = y :=
  ⟨fun h => by rw [← BitVec.reverse_reverse_eq (x := x), h, BitVec.reverse_reverse_eq], congrArg _⟩

theorem reverse_shiftLeft_one (c : Half) : (c <<< 1).reverse = c.reverse >>> 1 := by
  ext i hi
  simp only [BitVec.getElem_reverse, BitVec.getElem_ushiftRight, BitVec.getLsbD_reverse, BitVec.getMsbD_shiftLeft,
    Nat.add_comm]

theorem reverse_crcRoundMsb (poly c : Half) : (crcRoundMsb poly c).reverse = crcRoundLsb (rev16 poly) c.reverse := by
  have hbit : c.reverse.getLsbD 0 = c.getLsbD 15 := BitVec.getLsbD_reverse
  rw [crcRoundMsb_eq_xor, crcRoundLsb_eq_xor, reverse_xor, reverse_shiftLeft_one, hbit]
  cases c.getLsbD 15 with
  | false => exact congrArg (c.reverse >>> 1 ^^^ ·) (by decide : (0 : Half).reverse = 0)
  | true => rfl

/-- A mirrored byte at the top of the state is the byte at the bottom of the mirrored state. -/
theorem reverse_setWidth_shiftLeft (b : Byte) : (b.reverse.setWidth 16 <<< 8 : Half).reverse = b.setWidth 16 := by
  ext i hi
  have hbit : b.reverse.getMsbD i = b.getLsbD i := BitVec.getMsbD_reverse
  simp [BitVec.getElem_reverse, BitVec.getMsbD_setWidth, hbit]

/-- Settles O35: each round is the mirror image of the other bit order's round. -/
theorem reflectedCrcStepIsTheMirrorImage : Obligations.ReflectedCrcStepIsTheMirrorImage := by
  intro n poly c b
  have hround : Function.Semiconj BitVec.reverse (crcRoundMsb poly) (crcRoundLsb (rev16 poly)) :=
    reverse_crcRoundMsb poly
  simp only [crcStep_eq_iterate, crcRound, crcAligned, Bool.false_eq_true, if_true, if_false]
  rw [(hround.iterate_right 8).eq, reverse_xor, BitVec.reverse_reverse_eq, reverse_setWidth_shiftLeft]

/-- Byte by byte, the reflected fold is the mirror image of the MSB-first fold. -/
theorem crcFold_reflected (n : Nat) (poly c : Half) (bs : List Byte) :
    crcFold { fbufSize := n, crcPoly := poly, crcReflect := true } c bs =
      (crcFold { fbufSize := n, crcPoly := poly, crcReflect := false } c.reverse (bs.map BitVec.reverse)).reverse := by
  induction bs generalizing c with
  | nil => exact BitVec.reverse_reverse_eq.symm
  | cons b bs ih =>
    rw [crcFold_cons, ih, reflectedCrcStepIsTheMirrorImage, BitVec.reverse_reverse_eq, List.map_cons, crcFold_cons]

/-! ## What a checksum detects (R63) -/

theorem getLsbD_top_eq_false_iff (c : Half) : c.getLsbD 15 = false ↔ 2 * c.toNat < 2 ^ 16 :=
  BitVec.msb_eq_getLsbD_last c ▸ BitVec.msb_eq_false_iff_two_mul_lt

/-- With bit 15 of the state clear, a round only shifts it. -/
theorem crcRoundMsb_of_top_clear (poly : Half) {c : Half} (h : 2 * c.toNat < 2 ^ 16) :
    crcRoundMsb poly c = c <<< 1 := by
  rw [crcRoundMsb, (getLsbD_top_eq_false_iff c).mpr h]
  rfl

/-- With the generator's bit 0 set, bit 0 of a round is the bit that left the state, so only 0 goes to 0. -/
theorem eq_zero_of_crcRoundMsb_eq_zero {poly c : Half} (hpoly : poly.getLsbD 0 = true) (h : crcRoundMsb poly c = 0) :
    c = 0 := by
  cases htop : c.getLsbD 15 with
  | true =>
    have hbit : (crcRoundMsb poly c).getLsbD 0 = poly.getLsbD 0 := by simp [crcRoundMsb_eq_xor, htop]
    rw [h, hpoly] at hbit
    cases hbit
  | false =>
    have hlt := (getLsbD_top_eq_false_iff c).mp htop
    have hshift := congrArg BitVec.toNat ((crcRoundMsb_of_top_clear poly hlt).symm.trans h)
    apply BitVec.eq_of_toNat_eq
    simp only [BitVec.toNat_shiftLeft, Nat.shiftLeft_eq, BitVec.ofNat_eq_ofNat, BitVec.toNat_ofNat] at hshift ⊢
    omega

/-- A round loses nothing of the state (R8, R63). -/
theorem crcRoundMsb_injective {poly : Half} (hpoly : poly.getLsbD 0 = true) :
    Function.Injective (crcRoundMsb poly) := by
  intro u v h
  have hzero : crcRoundMsb poly (u ^^^ v) = 0 := by rw [crcRoundMsb_xor, h, BitVec.xor_self]; rfl
  exact BitVec.xor_eq_zero_iff.mp (eq_zero_of_crcRoundMsb_eq_zero hpoly hzero)

/-- With nothing at the top of the state, rounds only shift it. -/
theorem crcRoundMsb_iterate_of_small (poly : Half) (n : Nat) {c : Half} (h : c.toNat * 2 ^ n < 2 ^ 16) :
    (crcRoundMsb poly)^[n] c = c <<< n := by
  induction n generalizing c with
  | zero => simp
  | succ n ih =>
    have hdouble : 2 * c.toNat * 2 ^ n < 2 ^ 16 := by rwa [Nat.mul_comm 2, Nat.mul_assoc, ← Nat.pow_succ']
    have hlt : 2 * c.toNat < 2 ^ 16 := lt_of_le_of_lt (Nat.le_mul_of_pos_right _ (Nat.two_pow_pos n)) hdouble
    have hshift : (c <<< 1).toNat = 2 * c.toNat := by
      rw [BitVec.toNat_shiftLeft, Nat.shiftLeft_eq]
      omega
    rw [Function.iterate_succ_apply, crcRoundMsb_of_top_clear poly hlt, ih (hshift ▸ hdouble), Nat.add_comm,
      BitVec.shiftLeft_add]

/-- Two MSB-first steps are sixteen rounds on the state with both bytes xored in, the first one higher. -/
theorem crcStep_crcStep_msb {p : Config.Params} (hr : p.crcReflect = false) (c : Half) (x y : Byte) :
    crcStep p (crcStep p c x) y = (crcRoundMsb p.crcPoly)^[16] (c ^^^ le16 y x) := by
  have hlow : (crcRoundMsb p.crcPoly)^[8] (y.setWidth 16) = y.setWidth 16 <<< 8 :=
    crcRoundMsb_iterate_of_small _ 8 (by have := y.isLt; simp; omega)
  have hbytes : le16 y x = x.setWidth 16 <<< 8 ^^^ y.setWidth 16 := by
    ext i hi
    by_cases h : i < 8
    · simp [le16, h]
    · simp [le16, h, BitVec.getLsbD_of_ge y i (by omega)]
  rw [crcStep_eq_msb hr, crcStep_eq_msb hr, ← hlow, ← iterate_xor (crcRoundMsb_xor _), ← Function.iterate_add_apply,
    hbytes, BitVec.xor_assoc]

theorem crcStep_msb_injective {p : Config.Params} (hr : p.crcReflect = false) (hpoly : p.crcPoly.getLsbD 0 = true)
    (b : Byte) : Function.Injective (crcStep p · b) := by
  intro c d h
  simp only [crcStep_eq_msb hr] at h
  exact (BitVec.xor_left_inj _).mp ((crcRoundMsb_injective hpoly).iterate 8 h)

theorem crcFold_msb_injective {p : Config.Params} (hr : p.crcReflect = false) (hpoly : p.crcPoly.getLsbD 0 = true)
    (bs : List Byte) : Function.Injective (crcFold p · bs) := by
  induction bs with
  | nil => exact Function.injective_id
  | cons b bs ih => exact ih.comp (crcStep_msb_injective hr hpoly b)

/-- MSB-first, streams that agree but in two neighbouring bytes and have one fold agree there too. -/
theorem neighbours_eq_of_crcFold_msb_eq {p : Config.Params} (hr : p.crcReflect = false)
    (hpoly : p.crcPoly.getLsbD 0 = true) {c : Half} {before after : List Byte} {x y x' y' : Byte}
    (h : crcFold p c (before ++ [x, y] ++ after) = crcFold p c (before ++ [x', y'] ++ after)) :
    (x, y) = (x', y') := by
  simp only [crcFold_append, crcFold_cons, crcFold_nil] at h
  have hpair := crcFold_msb_injective hr hpoly after h
  simp only [crcStep_crcStep_msb hr] at hpair
  have hle : le16 y x = le16 y' x' :=
    (BitVec.xor_right_inj _).mp ((crcRoundMsb_injective hpoly).iterate 16 hpair)
  have hx : x = x' := by rw [← hiByte_le16 y x, hle, hiByte_le16]
  have hy : y = y' := by rw [← loByte_le16 y x, hle, loByte_le16]
  rw [hx, hy]

/-- Settles O37: MSB-first by the rounds' injectivity; the reflected engine is the mirror image. -/
theorem crcDetectsChangesInTwoNeighbouringBytes : Obligations.CrcDetectsChangesInTwoNeighbouringBytes := by
  rintro ⟨n, poly, reflect⟩ before after x y x' y' ⟨-, -, -, hpoly⟩ hne h
  cases reflect with
  | false => exact hne (neighbours_eq_of_crcFold_msb_eq rfl hpoly h)
  | true =>
    simp only [crcCompute, crcFold_reflected, List.map_append, List.map_cons, List.map_nil, reverse_inj] at h
    have hmirror : (x.reverse, y.reverse) = (x'.reverse, y'.reverse) :=
      neighbours_eq_of_crcFold_msb_eq (p := ⟨n, poly, false⟩) rfl hpoly h
    simp only [Prod.mk.injEq, reverse_inj] at hmirror
    obtain ⟨hx, hy⟩ := hmirror
    exact hne (by rw [hx, hy])

end Sys2Proof.Machine
end

section
/-! The CRC commands (40_crc.md R61, R64 to R66): CRC_INIT, CRC_STEP and CRC_BULK, and that the last two agree. -/

namespace Sys2Proof.Machine

/-- Settles O38: the rule is two writes. -/
theorem crcInitSeedsTheEngine : Obligations.CrcInitSeedsTheEngine :=
  ⟨assembleWord_zero 0x10, illegalFormsRefused .crcInit, fun _ => ⟨fun hm => exec_of_idle rfl hm, exec_of_busy rfl⟩⟩

/-- CRC_STEP in IDLE (R65). -/
theorem exec_crcStep_of_idle (b : Byte) {s : State} (hm : s.mode = .idle) :
    exec (.crcStep b) s = .next (crcStepByte b s) := exec_of_idle rfl hm

/-- Settles O39: the word's operand is its B field, and the rule is one step of the engine. -/
theorem crcStepFoldsOneByte : Obligations.CrcStepFoldsOneByte :=
  ⟨illegalFormsRefused .crcStep, fun b _ =>
    ⟨toNat_assembleWord 0x11 b 0, exec_crcStep_of_idle b, exec_of_busy rfl⟩⟩

/-- CRC_BULK in IDLE, of a range in FBUF (R66). -/
theorem exec_crcBulk_of_inRange {n : Half} {s : State} (hm : s.mode = .idle)
    (hr : s.bptr.toNat + n.toNat ≤ s.params.fbufSize) :
    exec (.crcBulk n) s =
      .next { s with crc := crcCompute s.params (s.bytesFrom s.bptr.toNat n.toNat), result := .ok } :=
  (exec_of_idle rfl hm).trans (congrArg _ (if_neg hr.not_gt))

/-- CRC_BULK in IDLE, of a range that passes the end of FBUF (R38, R66). -/
theorem exec_crcBulk_of_outOfRange {n : Half} {s : State} (hm : s.mode = .idle)
    (hr : s.params.fbufSize < s.bptr.toNat + n.toNat) :
    exec (.crcBulk n) s = .next { s with result := .errRange } :=
  (exec_of_idle rfl hm).trans (congrArg _ (if_pos hr))

/-- Settles O40: the bytes are those the range reads as. -/
theorem crcBulkChecksumsTheRange : Obligations.CrcBulkChecksumsTheRange := by
  refine ⟨illegalFormsRefused .crcBulk, fun n s =>
    ⟨toNat_assembleWord 0x12 0 n, fun hm hr => ?_, exec_crcBulk_of_outOfRange, exec_of_busy rfl⟩⟩
  refine ⟨s.bytesFrom s.bptr.toNat n.toNat, s.length_bytesFrom _ _, fun k hk => ?_, exec_crcBulk_of_inRange hm hr⟩
  have hk' : k < (s.bytesFrom s.bptr.toNat n.toNat).length := by rwa [s.length_bytesFrom]
  rw [List.getElem?_eq_getElem hk', s.getElem_bytesFrom]

theorem execAll_cons_of_next {i : Instr} {s t : State} (h : exec i s = .next t) (is : List Instr) :
    execAll (i :: is) s = execAll is t := by
  simp only [execAll, h]

/-- CRC_STEP on each byte of a nonempty sequence folds it into CRC; every one sets RESULT = OK. -/
theorem execAll_crcStep {s : State} (hm : s.mode = .idle) (b : Byte) (bs : List Byte) :
    execAll ((b :: bs).map .crcStep) s = .next (s.setCrc (crcFold s.params s.crc (b :: bs))).done := by
  rw [List.map_cons, execAll_cons_of_next (exec_crcStep_of_idle b hm)]
  induction bs generalizing s b with
  | nil => rfl
  | cons b' bs ih =>
    rw [List.map_cons, execAll_cons_of_next (exec_crcStep_of_idle b' (s := crcStepByte b s) hm)]
    exact ih (s := crcStepByte b s) hm b'

theorem crcFold_eq_foldl (p : Config.Params) (c : Half) (bs : List Byte) :
    crcFold p c bs = bs.foldl (crcStep p) c := by
  induction bs generalizing c with
  | nil => rfl
  | cons b bs ih => exact ih (crcStep p c b)

/-- Settles O41: both are the fold of the range's bytes from 0xFFFF. -/
theorem incrementalAndBulkCrcAgree : Obligations.IncrementalAndBulkCrcAgree := by
  refine ⟨fun p u v => ?_, fun s n hm hc hn hr => ?_⟩
  · rw [crcCompute, crcFold_append, crcFold_eq_foldl p _ v]
    rfl
  · rw [exec_crcBulk_of_inRange hm hr]
    have hlen : 0 < (s.bytesFrom s.bptr.toNat n.toNat).length := by rwa [s.length_bytesFrom]
    obtain ⟨b, bs, hbs⟩ := List.exists_cons_of_length_pos hlen
    rw [hbs, execAll_crcStep hm b bs, hc]
    rfl

end Sys2Proof.Machine
end

section
/-! The frame buffer commands (41_buffer.md R67 to R69): BUF_SETPTR, BUF_WRITE and BUF_READ. -/

namespace Sys2Proof.Machine

theorem State.bptrInRange_iff (s : State) : s.bptrInRange = true ↔ s.bptr.toNat < s.params.fbufSize :=
  decide_eq_true_iff

/-- BUF_WRITE's own rule at a byte of FBUF (R68). -/
theorem bufWrite_of_inRange (b : Byte) {s : State} (hr : s.bptr.toNat < s.params.fbufSize) :
    bufWrite b s = ({ s with bptr := s.bptr + 1 }.setByte s.bptr.toNat b).done :=
  if_pos (s.bptrInRange_iff.mpr hr)

/-- BUF_WRITE's own rule past the end of FBUF (R68). -/
theorem bufWrite_of_outOfRange (b : Byte) {s : State} (hr : s.params.fbufSize ≤ s.bptr.toNat) :
    bufWrite b s = s.fail .errRange :=
  if_neg (mt s.bptrInRange_iff.mp hr.not_gt)

/-- BUF_READ's own rule at a byte of FBUF (R69). -/
theorem bufRead_of_inRange {s : State} (hr : s.bptr.toNat < s.params.fbufSize) :
    bufRead s = { s with bufData := s.byteAt s.bptr.toNat, bptr := s.bptr + 1, result := .ok } :=
  if_pos (s.bptrInRange_iff.mpr hr)

/-- BUF_READ's own rule past the end of FBUF (R69). -/
theorem bufRead_of_outOfRange {s : State} (hr : s.params.fbufSize ≤ s.bptr.toNat) : bufRead s = s.fail .errRange :=
  if_neg (mt s.bptrInRange_iff.mp hr.not_gt)

/-- FBUF_SIZE is at most 65535 (R8), so a BPTR in range does not wrap. -/
theorem State.bptr_add_one_toNat {s : State} (hp : s.params.legal) (hr : s.bptr.toNat < s.params.fbufSize) :
    (s.bptr + 1).toNat = s.bptr.toNat + 1 := by
  obtain ⟨-, hsize, -, -⟩ := hp
  exact BitVec.toNat_add_of_lt (show s.bptr.toNat + 1 < 2 ^ 16 by omega)

/-- What FBUF reads as after BUF_WRITE at a byte of it (R68). -/
theorem bufWrite_byteAt (b : Byte) {s : State} (hr : s.bptr.toNat < s.params.fbufSize) (j : Nat) :
    (bufWrite b s).byteAt j = if j = s.bptr.toNat then b else s.byteAt j := by
  rw [bufWrite_of_inRange b hr]
  exact State.byteAt_setByte _ _ b j

/-- Settles O43: in IDLE the command is its own rule, and FBUF after it is read byte by byte. -/
theorem bufWriteStoresOneByte : Obligations.BufWriteStoresOneByte := by
  refine ⟨illegalFormsRefused .bufWrite, fun b s =>
    ⟨toNat_assembleWord 0x21 b 0, fun hm hr => ?_, fun hm hr => ?_, exec_of_busy rfl⟩⟩
  · have hrule := bufWrite_of_inRange b hr
    refine ⟨bufWrite b s, exec_of_idle rfl hm, ?_, fun hp => ?_, ?_, fun j hj => ?_⟩
    · rw [hrule]; rfl
    · rw [hrule]; exact State.bptr_add_one_toNat hp hr
    · rw [bufWrite_byteAt b hr, if_pos rfl]
    · rw [bufWrite_byteAt b hr, if_neg hj]
  · exact (exec_of_idle rfl hm).trans (congrArg _ (bufWrite_of_outOfRange b hr))

/-- Settles O44: in IDLE the command is its own rule, on each side of the end of FBUF. -/
theorem bufReadLoadsOneByte : Obligations.BufReadLoadsOneByte :=
  ⟨assembleWord_zero 0x22, illegalFormsRefused .bufRead, fun _ =>
    ⟨fun hm hr => (exec_of_idle rfl hm).trans (congrArg _ (bufRead_of_inRange hr)),
      fun hm hr => (exec_of_idle rfl hm).trans (congrArg _ (bufRead_of_outOfRange hr)), exec_of_busy rfl⟩⟩

/-- Settles O42: the word's operand is its H field, and the rule checks no range. -/
theorem bufSetptrStoresThePointer : Obligations.BufSetptrStoresThePointer :=
  ⟨illegalFormsRefused .bufSetptr, fun a _ => ⟨toNat_assembleWord 0x20 0 a, exec_of_idle rfl, exec_of_busy rfl⟩⟩

end Sys2Proof.Machine
end

section
/-! The pure codec (42_codec.md R70 to R73): the parts of an encoded frame, that Decode gives them back, and that Decode
refuses a frame it accepted with a bit of the checked bytes flipped. -/

namespace Sys2Proof.Machine

/-! ## Frame fields (R11, R39) -/

theorem toNat_loByte (v : Half) : (loByte v).toNat = v.toNat % 256 := by simp [loByte]

theorem toNat_hiByte (v : Half) : (hiByte v).toNat = v.toNat / 256 := by
  have := v.isLt
  rw [hiByte, BitVec.extractLsb'_toNat, Nat.shiftRight_eq_div_pow]
  omega

theorem toNat_le16 (x y : Byte) : (le16 x y).toNat = x.toNat + 256 * y.toNat := by
  have hlo := toNat_loByte (le16 x y)
  have hhi := toNat_hiByte (le16 x y)
  rw [loByte_le16] at hlo
  rw [hiByte_le16] at hhi
  omega

theorem toNat_fieldAt (f : List Byte) (i : Nat) :
    (fieldAt f i).toNat = (f.getD i 0).toNat + 256 * (f.getD (i + 1) 0).toNat := toNat_le16 _ _

/-- The field whose two bytes follow the bytes `u`. -/
theorem fieldAt_append_le16Bytes (u w : List Byte) (v : Half) : fieldAt (u ++ le16Bytes v ++ w) u.length = v := by
  simp [fieldAt, le16Bytes]

/-- A field lies in its own two bytes. -/
theorem fieldAt_set_of_lt {f : List Byte} {i k : Nat} (h : i < k) (b : Byte) : fieldAt (f.set i b) k = fieldAt f k := by
  simp only [fieldAt, List.getD_eq_getElem?_getD, List.getElem?_set_ne (show i ≠ k by omega),
    List.getElem?_set_ne (show i ≠ k + 1 by omega)]

/-! ## The parts of an encoded frame (R71) -/

section
variable (p : Config.Params) (index len : Half) {cap : Nat} {pl : List Byte}

theorem fieldAt_frameEncode_index : fieldAt (frameEncode p index len cap pl) 0 = index := by
  simpa [frameEncode, frameBody, frameHeader] using fieldAt_append_le16Bytes [] _ index

theorem fieldAt_frameEncode_length : fieldAt (frameEncode p index len cap pl) 2 = len := by
  simpa [frameEncode, frameBody, frameHeader] using fieldAt_append_le16Bytes (le16Bytes index) _ len

/-- The bytes that the checksum covers. -/
theorem take_frameEncode (h : pl.length ≤ cap) :
    (frameEncode p index len cap pl).take (cap + 4) = frameBody index len cap pl :=
  List.take_left' (length_frameBody index len cap pl h)

theorem fieldAt_frameEncode_checksum (h : pl.length ≤ cap) :
    fieldAt (frameEncode p index len cap pl) (cap + 4) = crcCompute p (frameBody index len cap pl) := by
  simpa [frameEncode, length_frameBody, h] using
    fieldAt_append_le16Bytes (frameBody index len cap pl) [] (crcCompute p (frameBody index len cap pl))

/-- The payload's place holds the payload and the padding. -/
theorem drop_take_frameEncode (h : pl.length ≤ cap) :
    ((frameEncode p index len cap pl).drop 4).take cap = pl ++ List.replicate (cap - pl.length) 0 := by
  have hlen : (pl ++ List.replicate (cap - pl.length) (0 : Byte)).length = cap := by simp [h]
  rw [frameEncode, frameBody, List.append_assoc, List.append_assoc, List.drop_left' (length_frameHeader index len),
    ← List.append_assoc, List.take_left' hlen]

/-- The byte at position `k` of the payload's place. -/
theorem getElem?_frameEncode_payload (h : pl.length ≤ cap) {k : Nat} (hk : k < cap) :
    (frameEncode p index len cap pl)[4 + k]? = (pl ++ List.replicate (cap - pl.length) 0)[k]? := by
  rw [← drop_take_frameEncode p index len h, List.getElem?_take_of_lt hk, List.getElem?_drop]

end

/-- Settles O45: each clause reads one part of the frame. -/
theorem encodedFrameHasItsLayout : Obligations.EncodedFrameHasItsLayout := by
  intro p index len cap pl h
  refine ⟨_, rfl, length_frameEncode p index len cap pl h, ?_, ?_, fun k hk => ?_, fun k hk hcap => ?_, ?_⟩
  · rw [← toNat_fieldAt, fieldAt_frameEncode_index]
  · rw [← toNat_fieldAt, fieldAt_frameEncode_length]
  · rw [getElem?_frameEncode_payload p index len h (by omega), List.getElem?_append_left hk]
  · rw [getElem?_frameEncode_payload p index len h hcap, List.getElem?_append_right hk,
      List.getElem?_replicate_of_lt (by omega)]
  · rw [← toNat_fieldAt, fieldAt_frameEncode_checksum p index len h, take_frameEncode p index len h]

/-! ## Decode (R72) -/

/-- Decode accepts a frame when the checksum of its first P + 4 bytes is the stored one. -/
theorem frameDecode_of_eq {p : Config.Params} {f : List Byte} {cap : Nat}
    (h : crcCompute p (f.take (cap + 4)) = fieldAt f (cap + 4)) :
    frameDecode p f cap = .ok (fieldAt f 0) (fieldAt f 2) ((f.drop 4).take cap) := if_pos h

/-- Decode refuses every other frame. -/
theorem frameDecode_of_ne {p : Config.Params} {f : List Byte} {cap : Nat}
    (h : crcCompute p (f.take (cap + 4)) ≠ fieldAt f (cap + 4)) :
    frameDecode p f cap = .mismatch (fieldAt f (cap + 4)) (crcCompute p (f.take (cap + 4))) := if_neg h

theorem checksum_of_frameDecode_ok {p : Config.Params} {f : List Byte} {cap : Nat} {index len : Half} {pl : List Byte}
    (h : frameDecode p f cap = .ok index len pl) : crcCompute p (f.take (cap + 4)) = fieldAt f (cap + 4) := by
  by_contra hne
  rw [frameDecode_of_ne hne] at h
  cases h

/-- R73, first half. -/
theorem frameDecode_frameEncode (p : Config.Params) (index len : Half) {cap : Nat} {pl : List Byte}
    (h : pl.length ≤ cap) :
    frameDecode p (frameEncode p index len cap pl) cap =
      .ok index len (pl ++ List.replicate (cap - pl.length) 0) := by
  rw [frameDecode_of_eq, fieldAt_frameEncode_index, fieldAt_frameEncode_length, drop_take_frameEncode p index len h]
  rw [take_frameEncode p index len h, fieldAt_frameEncode_checksum p index len h]

/-! ## Tampering (R63, R73) -/

/-- One changed byte changes the checksum: with a byte appended to both streams, it is one of two neighbouring bytes. -/
theorem crcCompute_ne_of_byte_ne {p : Config.Params} (hp : p.legal) {x y : Byte} (hne : x ≠ y)
    (before after : List Byte) : crcCompute p (before ++ x :: after) ≠ crcCompute p (before ++ y :: after) := by
  intro h
  have hnil : after ++ [0] ≠ [] := by simp
  obtain ⟨z, rest, hz⟩ := List.exists_cons_of_ne_nil hnil
  have happ (b : Byte) :
      crcCompute p (before ++ [b, z] ++ rest) = crcStep p (crcCompute p (before ++ b :: after)) 0 := by
    have hstream : before ++ [b, z] ++ rest = (before ++ b :: after) ++ [0] := by simp [← hz]
    rw [hstream, crcCompute, crcFold_append]
    rfl
  refine crcDetectsChangesInTwoNeighbouringBytes p before rest x z y z hp (by simp [hne]) ?_
  rw [happ, happ, h]

theorem crcCompute_set_ne {p : Config.Params} (hp : p.legal) {bs : List Byte} {i : Nat} (hi : i < bs.length) {b : Byte}
    (hne : b ≠ bs[i]) : crcCompute p (bs.set i b) ≠ crcCompute p bs := by
  obtain ⟨before, after, hbs, -, hset⟩ := List.exists_of_set (a' := b) hi
  rw [hset]
  conv_rhs => rw [hbs]
  exact crcCompute_ne_of_byte_ne hp hne before after

/-- Flipping a bit of a byte changes it. -/
theorem xor_bit_ne (b : Byte) {bit : Nat} (h : bit < 8) : b ^^^ ((1 : Byte) <<< bit) ≠ b := by
  intro heq
  have hbit := congrArg (BitVec.getLsbD · bit) heq
  simp [h] at hbit

/-- A frame that Decode accepts, with one byte of its first P + 4 changed, is refused (R73). -/
theorem frameDecode_set_of_ok {p : Config.Params} (hp : p.legal) {cap : Nat} {f : List Byte} (hlen : f.length = cap + 6)
    {index len : Half} {pl : List Byte} (hok : frameDecode p f cap = .ok index len pl) {i : Nat} (hi : i < cap + 4)
    {b : Byte} (hne : b ≠ f.getD i 0) :
    ∃ stored computed, frameDecode p (f.set i b) cap = .mismatch stored computed := by
  refine ⟨_, _, frameDecode_of_ne ?_⟩
  have hi' : i < (f.take (cap + 4)).length := by rw [List.length_take]; omega
  rw [fieldAt_set_of_lt hi, ← checksum_of_frameDecode_ok hok, List.take_set]
  refine crcCompute_set_ne hp hi' ?_
  rwa [List.getElem_take, ← List.getD_eq_getElem f 0]

/-- Settles O46: the parts of an encoded frame, and the CRC's detection of one changed byte. -/
theorem decodeInvertsEncodeAndDetectsTampering : Obligations.DecodeInvertsEncodeAndDetectsTampering := by
  refine ⟨fun p index len cap pl hcap hpl => ?_, fun p cap f index len pl i bit hp hlen hok hi hbit => ?_⟩
  · rw [← hpl] at hcap ⊢
    exact frameDecode_frameEncode p index len hcap
  · exact frameDecode_set_of_ok hp hlen hok hi (xor_bit_ne _ hbit)

end Sys2Proof.Machine
end

section
/-! The codec commands (42_codec.md R74 to R77): FRM_ENCODE and FRM_DECODE. Each branch of their rules is said once. -/

namespace Sys2Proof.Machine

theorem State.configValid_eq_false_iff (s : State) :
    s.configValid = false ↔ ¬(7 ≤ s.frameSize.toNat ∧ s.frameSize.toNat ≤ s.params.fbufSize) := by
  rw [← Bool.not_eq_true, s.configValid_iff]

/-- Header and payload of a valid CONFIG's frame are all but the two checksum bytes (R9). -/
theorem State.capacity_add_header {s : State} (hc : s.configValid = true) :
    s.capacity + 4 = s.frameSize.toNat - 2 := by
  rw [← State.capacity_add_overhead hc]
  rfl

@[simp] theorem State.bytesFrom_done (s : State) (a n : Nat) : s.done.bytesFrom a n = s.bytesFrom a n := rfl

/-! ## FRM_ENCODE (R76) -/

theorem frmEncode_of_invalid {s : State} (hc : s.configValid = false) : frmEncode s = s.fail .errConfig := by
  simp [frmEncode, hc]

theorem frmEncode_of_tooLong {s : State} (hc : s.configValid = true) (hl : s.capacity < s.txLength.toNat) :
    frmEncode s = s.fail .errLength := by
  simp [frmEncode, hc, hl]

theorem frmEncode_of_fits {s : State} (hc : s.configValid = true) (hl : s.txLength.toNat ≤ s.capacity) :
    frmEncode s = (encodeFrame s.txIndex s.txLength s).done := by
  simp [frmEncode, hc, hl.not_gt]

/-- EncodeFrame writes FBUF and CRC alone (R74). -/
theorem encodeFrame_writes (idx len : Half) (s : State) :
    encodeFrame idx len s =
      { s with fbuf := (encodeFrame idx len s).fbuf, crc := (encodeFrame idx len s).crc } := by
  apply State.ext <;> simp

/-- The frame that FRM_ENCODE builds (R76). -/
def State.frmEncoded (s : State) : List Byte :=
  frameEncode s.params s.txIndex s.txLength s.capacity (s.bytesFrom 4 s.txLength.toNat)

/-- FRM_ENCODE writes FBUF, the built frame's checksum and RESULT (R76). -/
theorem frmEncode_writes {s : State} (hc : s.configValid = true) (hl : s.txLength.toNat ≤ s.capacity) :
    frmEncode s =
      { s with
        fbuf := (frmEncode s).fbuf
        crc := crcCompute s.params (s.frmEncoded.take (s.capacity + 4)), result := .ok } := by
  have hcrc : (encodeFrame s.txIndex s.txLength s).crc = crcCompute s.params (s.frmEncoded.take (s.capacity + 4)) := by
    rw [encodeFrame_crc _ _ s hl, State.frmEncoded, take_frameEncode _ _ _ (by rwa [s.length_bytesFrom])]
  have hwrites := encodeFrame_writes s.txIndex s.txLength s
  rw [frmEncode_of_fits hc hl, ← hcrc]
  generalize encodeFrame s.txIndex s.txLength s = u at hwrites ⊢
  exact congrArg State.done hwrites

/-- The first FRAME_SIZE bytes are the built frame afterwards (R76). -/
theorem frmEncode_bytes {s : State} (hc : s.configValid = true) (hl : s.txLength.toNat ≤ s.capacity) :
    (frmEncode s).bytesFrom 0 s.frameSize.toNat = s.frmEncoded := by
  rw [frmEncode_of_fits hc hl, State.bytesFrom_done, ← State.capacity_add_overhead hc]
  exact encodeFrame_bytes _ _ s hl

/-- The bytes at FRAME_SIZE and above keep their values (R76). -/
theorem frmEncode_byteAt_above {s : State} {j : Nat} (hj : s.frameSize.toNat ≤ j) :
    (frmEncode s).byteAt j = s.byteAt j :=
  by_contra fun hne => (frmEncode_byteAt_ne hne).not_ge hj

/-- Settles O47: R76's checks in order, and the state after the branch that builds the frame. -/
theorem frmEncodeBuildsTheFrame : Obligations.FrmEncodeBuildsTheFrame := by
  refine ⟨assembleWord_zero 0x30, illegalFormsRefused .frmEncode, fun s =>
    ⟨exec_of_busy rfl, fun hm hc => ?_, fun hm hmin hmax hl => ?_, fun hm hmin hmax hl => ?_⟩⟩
  · exact (exec_of_idle rfl hm).trans (congrArg _ (frmEncode_of_invalid (s.configValid_eq_false_iff.mpr hc)))
  · exact (exec_of_idle rfl hm).trans (congrArg _ (frmEncode_of_tooLong (s.configValid_iff.mpr ⟨hmin, hmax⟩) hl))
  · have hc := s.configValid_iff.mpr ⟨hmin, hmax⟩
    refine ⟨frmEncode s, s.frmEncoded, exec_of_idle rfl hm, rfl, ?_, frmEncode_bytes hc hl,
      fun j => frmEncode_byteAt_above⟩
    rw [← State.capacity_add_header hc]
    exact frmEncode_writes hc hl

/-! ## FRM_DECODE (R77) -/

theorem frmDecode_of_invalid {s : State} (hc : s.configValid = false) : frmDecode s = s.fail .errConfig := by
  simp [frmDecode, hc]

/-- The values CheckFrame computes, under a valid CONFIG, by their places in FBUF (R75). -/
theorem State.frameCheck_eq {s : State} (hc : s.configValid = true) :
    s.frameCheck.computed = crcCompute s.params (s.bytesFrom 0 (s.frameSize.toNat - 2)) ∧
      s.frameCheck.stored = le16 (s.byteAt (s.frameSize.toNat - 2)) (s.byteAt (s.frameSize.toNat - 1)) := by
  have hlast : s.capacity + 4 + 1 = s.frameSize.toNat - 1 := by rw [← State.capacity_add_overhead hc]; rfl
  rw [← hlast, ← State.capacity_add_header hc]
  exact ⟨rfl, rfl⟩

/-- FRM_DECODE of a frame whose checksum is the stored one (R77). -/
theorem frmDecode_of_ok {s : State} (hc : s.configValid = true) (hk : s.frameCheck.ok = true) :
    frmDecode s =
      { s with
        rxStored := s.frameCheck.computed, rxCalc := s.frameCheck.computed, crc := s.frameCheck.computed
        rxIndex := s.frameCheck.idx, rxLength := s.frameCheck.len
        lenOver := decide (s.capacity < s.frameCheck.len.toNat), result := .ok } := by
  have hrule : frmDecode s = (checkFrame s).setResult .ok := by simp [frmDecode, hc, hk]
  rw [hrule, checkFrame_of_ok hk, ← (frameCheck_ok_iff s).mp hk]
  rfl

/-- FRM_DECODE of a frame whose checksum is another (R77). -/
theorem frmDecode_of_mismatch {s : State} (hc : s.configValid = true) (hk : s.frameCheck.ok = false) :
    frmDecode s =
      { s with
        rxStored := s.frameCheck.stored, rxCalc := s.frameCheck.computed, crc := s.frameCheck.computed
        lenOver := false, result := .crcMismatch } := by
  have hrule : frmDecode s = (checkFrame s).setResult .crcMismatch := by simp [frmDecode, hc, hk]
  rw [hrule, checkFrame_of_mismatch hk]
  rfl

/-- Settles O48: Decode of the first FRAME_SIZE bytes is CheckFrame's verdict, and each verdict has its writes. -/
theorem frmDecodeChecksTheFrame : Obligations.FrmDecodeChecksTheFrame := by
  refine ⟨assembleWord_zero 0x31, illegalFormsRefused .frmDecode, fun s =>
    ⟨exec_of_busy rfl, fun hm hc => ?_, fun hm hmin hmax => ?_⟩⟩
  · exact (exec_of_idle rfl hm).trans (congrArg _ (frmDecode_of_invalid (s.configValid_eq_false_iff.mpr hc)))
  · have hc := s.configValid_iff.mpr ⟨hmin, hmax⟩
    obtain ⟨hcomputed, hstored⟩ := State.frameCheck_eq hc
    have hdecode := frameDecode_bytesFrom s
    rw [State.capacity_add_overhead hc, s.capacity_eq] at hdecode
    cases hk : s.frameCheck.ok with
    | true =>
      have heq := (frameCheck_ok_iff s).mp hk
      rw [hdecode, hk]
      exact ⟨rfl, rfl, s.frameCheck.computed, hcomputed, heq.trans hstored,
        (exec_of_idle rfl hm).trans (congrArg _ (frmDecode_of_ok hc hk))⟩
    | false =>
      have hne : s.frameCheck.stored ≠ s.frameCheck.computed := fun he =>
        Bool.false_ne_true (hk.symm.trans ((frameCheck_ok_iff s).mpr he.symm))
      rw [hdecode, hk]
      exact ⟨hcomputed, hne, hstored, (exec_of_idle rfl hm).trans (congrArg _ (frmDecode_of_mismatch hc hk))⟩

end Sys2Proof.Machine
end

section
/-! The partition of a stream (43_splitter.md R78, R79): how many frames it has, and the slice each frame carries. -/

namespace Sys2Proof.Machine

/-! ## The frame count -/

/-- `ceil(a / b)` is the least number of `b`s that reach `a`. -/
theorem ceilDiv_le_iff {a b n : Nat} (hb : 0 < b) : ceilDiv a b ≤ n ↔ a ≤ n * b := by
  rw [Nat.mul_comm]
  exact ceilDiv_le_iff_le_mul hb

theorem lt_ceilDiv_iff {a b n : Nat} (hb : 0 < b) : n < ceilDiv a b ↔ n * b < a := by
  rw [← Nat.not_le, ceilDiv_le_iff hb, Nat.not_le]

/-- The count of a stream of `n` full frames and a part of one more. -/
theorem ceilDiv_full_add {b n r : Nat} (hr : 0 < r) (hrb : r ≤ b) : ceilDiv (n * b + r) b = n + 1 := by
  have hb : 0 < b := hr.trans_le hrb
  refine Nat.le_antisymm ((ceilDiv_le_iff hb).mpr ?_) ((lt_ceilDiv_iff hb).mpr (by omega))
  rw [Nat.succ_mul]
  omega

/-! ## The slices -/

/-- The end of the stream cuts the last slice short by itself. -/
theorem splitSlice_eq (d : List Byte) (cap k : Nat) : splitSlice d cap k = (d.drop (k * cap)).take cap := by
  rw [splitSlice, ← List.length_drop, ← List.take_eq_take_min]

theorem length_splitSlice (d : List Byte) (cap k : Nat) :
    (splitSlice d cap k).length = min cap (d.length - k * cap) := by
  rw [splitSlice_eq, List.length_take, List.length_drop]

/-- The first `n` slices are the first `n * P` bytes of the stream. -/
theorem flatMap_splitSlice (d : List Byte) (cap n : Nat) :
    (List.range n).flatMap (splitSlice d cap) = d.take (n * cap) := by
  induction n with
  | zero => simp
  | succ n ih =>
    rw [List.range_succ, List.flatMap_append, ih, List.flatMap_singleton, splitSlice_eq, Nat.succ_mul, List.take_add]

/-! ## The frames -/

theorem length_splitFrames (p : Config.Params) (d : List Byte) (cap : Nat) :
    (splitFrames p d cap).length = ceilDiv d.length cap := by
  rw [splitFrames, List.length_map, List.length_range]

theorem splitFrames_getElem? {p : Config.Params} {d : List Byte} {cap k : Nat} {f : SplitFrame}
    (h : (splitFrames p d cap)[k]? = some f) : k < ceilDiv d.length cap ∧ f = splitFrame p d cap k := by
  obtain ⟨hk, rfl⟩ := List.getElem?_eq_some_iff.mp h
  rw [length_splitFrames] at hk
  exact ⟨hk, by simp [splitFrames]⟩

theorem splitFrame_length (p : Config.Params) (d : List Byte) (cap k : Nat) :
    (splitFrame p d cap k).length = min cap (d.length - k * cap) := rfl

theorem length_splitFrame_bytes (p : Config.Params) (d : List Byte) (cap k : Nat) :
    (splitFrame p d cap k).bytes.length = cap + 6 :=
  length_frameEncode _ _ _ _ _ (by rw [length_splitSlice]; exact Nat.min_le_left _ _)

/-- The declared payload bytes of a frame are its slice. -/
theorem splitFrame_payload (p : Config.Params) (d : List Byte) (cap k : Nat) :
    ((splitFrame p d cap k).bytes.drop 4).take (splitFrame p d cap k).length = splitSlice d cap k := by
  have hlen : (splitFrame p d cap k).length = (splitSlice d cap k).length := (length_splitSlice d cap k).symm
  have hcap : (splitSlice d cap k).length ≤ cap := by rw [length_splitSlice]; exact Nat.min_le_left _ _
  rw [hlen, ← Nat.min_eq_left hcap, ← List.take_take]
  show List.take _ (((frameEncode p _ _ cap (splitSlice d cap k)).drop 4).take cap) = _
  rw [drop_take_frameEncode _ _ _ hcap, List.take_left]

theorem splitFrame_length_of_full {p : Config.Params} {d : List Byte} {cap k : Nat} (h : (k + 1) * cap < d.length) :
    (splitFrame p d cap k).length = cap := by
  rw [Nat.succ_mul] at h
  rw [splitFrame_length]
  omega

/-- The last frame declares what is left over a multiple of P, or P (R79). -/
theorem splitFrame_length_of_last {p : Config.Params} {d : List Byte} {cap k : Nat} (hlo : k * cap < d.length)
    (hhi : d.length ≤ (k + 1) * cap) :
    (splitFrame p d cap k).length = if d.length % cap = 0 then cap else d.length % cap := by
  rw [Nat.succ_mul] at hhi
  obtain ⟨r, hr⟩ := Nat.exists_eq_add_of_lt hlo
  have hmod : d.length % cap = (r + 1) % cap := by rw [hr, Nat.add_assoc, Nat.mul_comm, Nat.mul_add_mod]
  have hlen : (splitFrame p d cap k).length = r + 1 := by rw [splitFrame_length]; omega
  rw [hlen, hmod]
  obtain hlt | heq := Nat.lt_or_eq_of_le (show r + 1 ≤ cap by omega)
  · rw [Nat.mod_eq_of_lt hlt, if_neg (Nat.succ_ne_zero r)]
  · rw [heq, Nat.mod_self, if_pos rfl]

/-- Settles O49: the count is the least that reaches the stream's length, and the slices cut the stream. -/
theorem splitPartitionsTheStream : Obligations.SplitPartitionsTheStream := by
  intro p d cap hcap
  refine ⟨ceilDiv d.length cap, length_splitFrames p d cap, (ceilDiv_le_iff hcap).mp le_rfl,
    fun m => (ceilDiv_le_iff hcap).mpr, fun k f hf => ?_, ?_⟩
  · obtain ⟨hk, rfl⟩ := splitFrames_getElem? hf
    refine ⟨rfl, fun hmore => ?_, fun hlast => ?_, length_splitFrame_bytes p d cap k⟩
    · exact splitFrame_length_of_full ((lt_ceilDiv_iff hcap).mp hmore)
    · exact splitFrame_length_of_last ((lt_ceilDiv_iff hcap).mp hk) ((ceilDiv_le_iff hcap).mp hlast.ge)
  · rw [splitFrames, List.flatMap_map]
    simp only [splitFrame_payload]
    rw [flatMap_splitSlice, List.take_of_length_le ((ceilDiv_le_iff hcap).mp le_rfl)]

end Sys2Proof.Machine
end

section
/-! The splitter's commands (43_splitter.md R80, R81): TX_START and TX_BYTE. Each branch of their rules is said once. -/

namespace Sys2Proof.Machine

/-- A command that the mode does not accept reports R99's code and does nothing else. -/
theorem exec_of_error {i : Instr} {s : State} {r : Result} (h : (commandGuard i).error? s.mode = some r) :
    exec i s = .next { s with result := r } := by
  obtain ⟨⟨b, rfl⟩, hm, -⟩ | ⟨⟨b, rfl⟩, hm, -⟩ | ⟨-, -, he⟩ := exec_cases i s
  · rw [hm] at h; cases h
  · rw [hm] at h; cases h
  · rw [he, State.accepted_of_some _ h]; rfl

/-! ## TX_START (R80) -/

theorem txStart_of_invalid {s : State} (hc : s.configValid = false) : txStart s = s.fail .errConfig := by
  simp [txStart, hc]

theorem txStart_of_tooMany {s : State} (hc : s.configValid = true) (hn : Config.maxFrames < s.framesNeeded) :
    txStart s = s.fail .errCapacity := by
  simp [txStart, hc, hn]

/-- TX_START of a session that fits: it ends at once when there is nothing to send (R80). -/
theorem txStart_of_fits {s : State} (hc : s.configValid = true) (hn : s.framesNeeded ≤ Config.maxFrames) :
    txStart s =
      if s.txTotal = 0 then (s.txPrepared.emit [.event (.txDone 0)]).done else (s.txPrepared.setMode .tx).done := by
  simp only [txStart, hc, hn.not_gt, Bool.not_true, Bool.false_eq_true, if_false]
  rfl

theorem State.framesNeeded_le_iff {s : State} (hc : s.configValid = true) {n : Nat} :
    s.framesNeeded ≤ n ↔ s.txTotal.toNat ≤ n * s.capacity := ceilDiv_le_iff (State.capacity_pos hc)

/-- Settles O50: R80's checks in order, each with its branch of the rule. -/
theorem txStartOpensTheSession : Obligations.TxStartOpensTheSession := by
  refine ⟨assembleWord_zero 0x40, illegalFormsRefused .txStart, fun s =>
    ⟨exec_of_busy rfl, fun hm hc => ?_, fun hm hmin hmax => ?_⟩⟩
  · exact (exec_of_idle rfl hm).trans (congrArg _ (txStart_of_invalid (s.configValid_eq_false_iff.mpr hc)))
  · have hc := s.configValid_iff.mpr ⟨hmin, hmax⟩
    have hrule : exec .txStart s = .next (txStart s) := exec_of_idle rfl hm
    refine ⟨fun hmany => ?_, fun h0 => ?_, fun h0 hfew => ?_⟩
    · rw [hrule, txStart_of_tooMany hc (Nat.lt_of_not_le fun hn => ?_)]
      · rfl
      · exact ((State.framesNeeded_le_iff hc).mp hn).not_gt hmany
    · have hfew := (State.framesNeeded_le_iff hc).mpr (show s.txTotal.toNat ≤ 65536 * s.capacity by simp [h0])
      rw [hrule, txStart_of_fits hc hfew, if_pos h0, State.txPrepared, h0]
      rfl
    · rw [hrule, txStart_of_fits hc ((State.framesNeeded_le_iff hc).mpr hfew), if_neg h0]
      rfl

/-! ## TX_BYTE (R81) -/

/-- TX_BYTE in an encode session whose sequencing registers are in range. -/
theorem exec_txByte_of_tx (b : Byte) {s : State} (hm : s.mode = .tx) (hr : s.encodeSessionInRange = true) :
    exec (.txByte b) s = .next (txByte b s) := by
  obtain ⟨-, -, hno, -⟩ | ⟨⟨b', hi⟩, -⟩ | ⟨-, -, he⟩ := exec_cases (.txByte b) s
  · exact absurd (hr.symm.trans hno) (by decide)
  · cases hi
  · exact he.trans (congrArg _ (State.accepted_of_none _ (error?_txOnly_eq_none_iff.mpr hm)))

/-- The byte that TX_REMAIN counts as the last one. -/
theorem txAccept_txRemain_eq_zero_iff (b : Byte) (s : State) : (txAccept b s).txRemain = 0 ↔ s.txRemain = 1 := by
  rw [txAccept_txRemain]
  exact sub_eq_zero

/-- The collected bytes are those collected before, and the new one. -/
theorem txAccept_collected (b : Byte) {s : State} (hf : s.fcount.toNat < s.capacity) :
    (txAccept b s).bytesFrom 4 (txAccept b s).fcount.toNat = s.bytesFrom 4 s.fcount.toNat ++ [b] := by
  rw [txAccept_fcount_toNat b hf, State.bytesFrom_add]
  congr 1
  · refine State.bytesFrom_ext fun k hk => ?_
    rw [byteAt_txAccept, if_neg (by omega)]
  · simp [State.bytesFrom, byteAt_txAccept]

/-- The frame that the byte completes. -/
theorem txAccept_frameBytes (b : Byte) {s : State} (hf : s.fcount.toNat < s.capacity) :
    (txAccept b s).txFrameBytes =
      frameEncode s.params s.txIndex (s.fcount + 1) s.capacity (s.bytesFrom 4 s.fcount.toNat ++ [b]) := by
  rw [State.txFrameBytes, txAccept_collected b hf]
  rfl

theorem txAccept_fcount_le (b : Byte) {s : State} (hf : s.fcount.toNat < s.capacity) :
    (txAccept b s).fcount.toNat ≤ (txAccept b s).capacity := by
  rw [txAccept_fcount_toNat b hf]
  exact hf

/-- What the frame completed by a byte appends to the output stream (R81). -/
theorem txFrameComplete_txAccept_out (b : Byte) {s : State} (hf : s.fcount.toNat < s.capacity) :
    (txFrameComplete (txAccept b s)).out =
      s.out ++ ((txAccept b s).txFrameBytes.map Item.data ++ [.event (.txFrame s.txIndex (s.fcount + 1))]) :=
  txFrameComplete_out (txAccept b s) (txAccept_fcount_le b hf)

/-- CRC is then the checksum of that frame's first P + 4 bytes (R20, R74). -/
theorem txFrameComplete_txAccept_crc (b : Byte) {s : State} (hf : s.fcount.toNat < s.capacity) :
    (txFrameComplete (txAccept b s)).crc =
      crcCompute s.params ((txAccept b s).txFrameBytes.take (s.capacity + 4)) := by
  have hle := txAccept_fcount_le b hf
  rw [txFrameComplete_crc _ hle, State.txFrameBytes]
  exact congrArg _ (take_frameEncode _ _ _ (by rwa [State.length_bytesFrom])).symm

theorem txByte_of_open {b : Byte} {s : State} (hf : s.fcount.toNat < s.capacity)
    (hne : s.fcount.toNat + 1 ≠ s.capacity) (hr : s.txRemain ≠ 1) : txByte b s = (txAccept b s).done := by
  have hr' : (txAccept b s).txRemain ≠ 0 := mt (txAccept_txRemain_eq_zero_iff b s).mp hr
  obtain ⟨-, h⟩ | ⟨⟨hfull, -⟩, -⟩ | ⟨hzero, -⟩ := txByte_cases b s
  · exact h
  · exact absurd ((txAccept_fcount_toNat b hf).symm.trans hfull) hne
  · exact absurd hzero hr'

theorem txByte_of_full {b : Byte} {s : State} (hf : s.fcount.toNat < s.capacity)
    (hfull : s.fcount.toNat + 1 = s.capacity) (hr : s.txRemain ≠ 1) :
    txByte b s = (txFrameComplete (txAccept b s)).done := by
  have hr' : (txAccept b s).txRemain ≠ 0 := mt (txAccept_txRemain_eq_zero_iff b s).mp hr
  obtain ⟨⟨hne, -⟩, -⟩ | ⟨-, h⟩ | ⟨hzero, -⟩ := txByte_cases b s
  · exact absurd ((txAccept_fcount_toNat b hf).trans hfull) hne
  · exact h
  · exact absurd hzero hr'

theorem txByte_of_last {b : Byte} {s : State} (hr : s.txRemain = 1) :
    txByte b s = (txFinish (txFrameComplete (txAccept b s))).done := by
  have hr' : (txAccept b s).txRemain = 0 := (txAccept_txRemain_eq_zero_iff b s).mpr hr
  obtain ⟨⟨-, hne⟩, -⟩ | ⟨⟨-, hne⟩, -⟩ | ⟨-, h⟩ := txByte_cases b s
  · exact absurd hr' hne
  · exact absurd hr' hne
  · exact h

/-- A byte that completes a frame leaves that frame in FBUF (R81). -/
theorem txByte_bytes {b : Byte} {s : State} (hc : s.configValid = true) (hf : s.fcount.toNat < s.capacity)
    (h : s.fcount.toNat + 1 = s.capacity ∨ s.txRemain = 1) :
    (txByte b s).bytesFrom 0 s.frameSize.toNat = (txAccept b s).txFrameBytes := by
  have hbuilt := txFrameComplete_bytes (txAccept b s) (txAccept_fcount_le b hf)
  rw [← State.capacity_add_overhead hc]
  by_cases hr : s.txRemain = 1
  · rw [txByte_of_last hr, State.bytesFrom_done]; exact hbuilt
  · rw [txByte_of_full hf (h.resolve_right hr) hr, State.bytesFrom_done]; exact hbuilt

/-- A byte that completes a frame of a session that goes on, written out (R81). -/
theorem txByte_full_writes {b : Byte} {s : State} (hf : s.fcount.toNat < s.capacity)
    (hfull : s.fcount.toNat + 1 = s.capacity) (hr : s.txRemain ≠ 1) :
    txByte b s =
      { s with
        fbuf := (txByte b s).fbuf, crc := crcCompute s.params ((txAccept b s).txFrameBytes.take (s.capacity + 4))
        txLength := s.fcount + 1, txIndex := s.txIndex + 1, txRemain := s.txRemain - 1, fcount := 0
        out := s.out ++ ((txAccept b s).txFrameBytes.map Item.data ++ [.event (.txFrame s.txIndex (s.fcount + 1))])
        result := .ok } := by
  have hout := txFrameComplete_txAccept_out b hf
  have hcrc := txFrameComplete_txAccept_crc b hf
  rw [txByte_of_full hf hfull hr]
  apply State.ext <;> simp [hcrc, hout]

/-- The session's last byte, written out (R81). -/
theorem txByte_last_writes {b : Byte} {s : State} (hf : s.fcount.toNat < s.capacity) (hr : s.txRemain = 1) :
    txByte b s =
      { s with
        fbuf := (txByte b s).fbuf, crc := crcCompute s.params ((txAccept b s).txFrameBytes.take (s.capacity + 4))
        txLength := s.fcount + 1, txIndex := s.txIndex + 1, txRemain := 0, fcount := 0, mode := .idle
        out := s.out ++ ((txAccept b s).txFrameBytes.map Item.data ++
          [.event (.txFrame s.txIndex (s.fcount + 1)), .event (.txDone (BitVec.ofNat 17 s.framesNeeded))])
        result := .ok } := by
  have hframes : (txFrameComplete (txAccept b s)).framesNeeded = s.framesNeeded :=
    State.framesNeeded_congr (by simp) (by simp)
  have hout := txFrameComplete_txAccept_out b hf
  have hcrc := txFrameComplete_txAccept_crc b hf
  rw [txByte_of_last hr]
  apply State.ext <;> simp [hcrc, hout, hframes, hr]

/-- A byte that leaves its frame open, written out (R81). -/
theorem txByte_open_writes {b : Byte} {s : State} (hf : s.fcount.toNat < s.capacity)
    (hne : s.fcount.toNat + 1 ≠ s.capacity) (hr : s.txRemain ≠ 1) :
    txByte b s =
      { s with fbuf := (txByte b s).fbuf, fcount := s.fcount + 1, txRemain := s.txRemain - 1, result := .ok } := by
  rw [txByte_of_open hf hne hr]
  rfl

/-- Settles O51: the three branches of the rule, and FBUF after each. -/
theorem txByteFeedsTheSplitter : Obligations.TxByteFeedsTheSplitter := by
  refine ⟨illegalFormsRefused .txByte, fun b s => ⟨toNat_assembleWord 0x41 b 0, fun hm => ?_, fun hm => ?_,
    fun hm hmin hmax hf hr => ?_⟩⟩
  · exact exec_of_error (by rw [hm]; rfl)
  · exact exec_of_error (by rw [hm]; rfl)
  · have hc := s.configValid_iff.mpr ⟨hmin, hmax⟩
    have hrule := exec_txByte_of_tx b hm (s.encodeSessionInRange_iff.mpr ⟨hc, hf, hr⟩)
    refine ⟨fun hne hr1 => ?_, fun hcomplete => ?_⟩
    · refine ⟨txByte b s, hrule, txByte_open_writes hf hne hr1, ?_, fun j hj => ?_⟩
      · rw [txByte_of_open hf hne hr1]
        exact (byteAt_txAccept b s _).trans (if_pos rfl)
      · rw [txByte_of_open hf hne hr1]
        exact (byteAt_txAccept b s j).trans (if_neg hj)
    · refine ⟨txByte b s, (txAccept b s).txFrameBytes, hrule, txAccept_frameBytes b hf, txByte_bytes hc hf hcomplete,
        fun j => txByte_byteAt_above hc hf, fun hr1 => ?_, fun hr1 => ?_⟩
      · rw [← State.capacity_add_header hc]
        exact txByte_full_writes hf (hcomplete.resolve_right hr1) hr1
      · rw [← State.capacity_add_header hc]
        exact txByte_last_writes hf hr1

end Sys2Proof.Machine
end

section
/-! A whole encode session (43_splitter.md R82): TX_START and TX_BYTE for each byte of a stream emit Split's frames. -/

namespace Sys2Proof.Machine

/-! ## Commands the host issues -/

/-- The host's next transaction is a command that completes. -/
theorem step_of_issue {i : Instr} {s t : State} {rest : List Txn} (hh : s.host = issue i :: rest)
    (he : exec i (s.issued rest) = .next t) : step s = .next t :=
  (stepRunsTheDecodedCommand s rest (encode i) i hh (decodeUndoesEncode i)).trans he

theorem commandRule_host (i : Instr) (s : State) : (commandRule i s).host = s.host := by
  obtain ⟨-, -, -, -, -, -, -, hhost, -⟩ := (s.fixedFields_eq_iff _).mp (commandRule_fixedFields i s)
  exact hhost

/-! ## What the first frames emit -/

/-- The items of the first `k` frames of Split. -/
def framesItems (p : Config.Params) (d : List Byte) (cap k : Nat) : List Item :=
  (List.range k).flatMap fun j => (splitFrame p d cap j).items

theorem framesItems_succ (p : Config.Params) (d : List Byte) (cap k : Nat) :
    framesItems p d cap (k + 1) = framesItems p d cap k ++ (splitFrame p d cap k).items := by
  rw [framesItems, List.range_succ, List.flatMap_append, List.flatMap_singleton]
  rfl

/-- The items of a session are those of all frames, and TX_DONE. -/
theorem encodeSessionItems_eq (p : Config.Params) (d : List Byte) (cap : Nat) :
    encodeSessionItems p d cap = framesItems p d cap (ceilDiv d.length cap) ++
      [.event (.txDone (BitVec.ofNat 17 (ceilDiv d.length cap)))] := by
  rw [encodeSessionItems, splitFrames, List.flatMap_map]
  rfl

/-! ## The session's progress -/

/-- The session that `s` began for the stream `d` has emitted `k` frames and collected the bytes `u` of the next one;
the bytes `v` are still to come. -/
structure EncodeProgress (s : State) (d : List Byte) (k : Nat) (u v : List Byte) (t : State) : Prop where
  mode : t.mode = .tx
  frameSize : t.frameSize = s.frameSize
  params : t.params = s.params
  txTotal : t.txTotal = s.txTotal
  stream : d.drop (k * s.capacity) = u ++ v
  room : u.length < s.capacity
  fcount : t.fcount.toNat = u.length
  collected : t.bytesFrom 4 u.length = u
  txIndex : t.txIndex = BitVec.ofNat 16 k
  txRemain : t.txRemain.toNat = v.length
  out : t.out = s.out ++ framesItems s.params d s.capacity k

/-- The session that `s` began for the stream `d` is over. -/
structure EncodeEnded (s : State) (d : List Byte) (t : State) : Prop where
  out : t.out = s.out ++ encodeSessionItems s.params d s.capacity
  mode : t.mode = .idle
  result : t.result = .ok
  txRemain : t.txRemain = 0
  fcount : t.fcount = 0
  txIndex : t.txIndex = BitVec.ofNat 16 (ceilDiv d.length s.capacity)

namespace EncodeProgress

variable {s t : State} {d u v : List Byte} {k : Nat} {b : Byte}

theorem capacity (h : EncodeProgress s d k u v t) : t.capacity = s.capacity := State.capacity_congr h.frameSize

theorem fcount_lt (h : EncodeProgress s d k u v t) : t.fcount.toNat < t.capacity := by
  rw [h.fcount, h.capacity]
  exact h.room

/-- A session with a byte to come may take it. -/
theorem exec_txByte (h : EncodeProgress s d k u (b :: v) t) (hc : s.configValid = true) :
    exec (.txByte b) t = .next (txByte b t) := by
  refine exec_txByte_of_tx b h.mode (t.encodeSessionInRange_iff.mpr ⟨?_, h.fcount_lt, ?_⟩)
  · rw [State.configValid_congr h.frameSize h.params, hc]
  · rw [h.txRemain]
    exact Nat.succ_pos v.length

theorem txRemain_eq_one_iff (h : EncodeProgress s d k u (b :: v) t) : t.txRemain = 1 ↔ v = [] := by
  rw [← BitVec.toNat_inj, h.txRemain, List.length_cons]
  simp

theorem length_stream (h : EncodeProgress s d k u (b :: v) t) :
    d.length = k * s.capacity + (u.length + 1 + v.length) := by
  have hlen := congrArg List.length h.stream
  simp only [List.length_drop, List.length_append, List.length_cons] at hlen
  omega

/-- The collected bytes and the one that completes the frame are the frame's slice. -/
theorem splitSlice_eq (h : EncodeProgress s d k u (b :: v) t) (hcomplete : u.length + 1 = s.capacity ∨ v = []) :
    splitSlice d s.capacity k = u ++ [b] := by
  have hlen : (u ++ [b]).length = u.length + 1 := by simp
  rw [Machine.splitSlice_eq, h.stream, List.append_cons]
  obtain hfull | rfl := hcomplete
  · exact List.take_left' (hlen.trans hfull)
  · rw [List.append_nil]
    exact List.take_of_length_le (hlen.trans_le h.room)

/-- The completed frame and its event are Split's. -/
theorem frame_items (h : EncodeProgress s d k u (b :: v) t) (hcomplete : u.length + 1 = s.capacity ∨ v = []) :
    (txAccept b t).txFrameBytes.map Item.data ++ [.event (.txFrame t.txIndex (t.fcount + 1))] =
      (splitFrame s.params d s.capacity k).items := by
  have hslice := h.splitSlice_eq hcomplete
  have hlen : min s.capacity (d.length - k * s.capacity) = u.length + 1 := by
    rw [← length_splitSlice, hslice]
    simp
  have hfcount : t.fcount + 1 = BitVec.ofNat 16 (u.length + 1) := by
    rw [← h.fcount, ← txAccept_fcount_toNat b h.fcount_lt, BitVec.ofNat_toNat, BitVec.setWidth_eq]
    rfl
  rw [txAccept_frameBytes b h.fcount_lt, h.fcount, h.collected, hfcount, h.txIndex, h.capacity, h.params,
    SplitFrame.items, splitFrame, hslice, hlen]

theorem next_out (h : EncodeProgress s d k u (b :: v) t) (hcomplete : u.length + 1 = s.capacity ∨ v = []) :
    t.out ++ ((txAccept b t).txFrameBytes.map Item.data ++ [.event (.txFrame t.txIndex (t.fcount + 1))]) =
      s.out ++ framesItems s.params d s.capacity (k + 1) := by
  rw [h.frame_items hcomplete, h.out, framesItems_succ, List.append_assoc]

theorem next_txIndex (h : EncodeProgress s d k u v t) : t.txIndex + 1 = BitVec.ofNat 16 (k + 1) := by
  rw [h.txIndex, BitVec.ofNat_add]
  rfl

theorem next_txRemain (h : EncodeProgress s d k u (b :: v) t) : (t.txRemain - 1).toNat = v.length := by
  have hremain := txAccept_txRemain_toNat b (s := t) (by rw [h.txRemain]; exact Nat.succ_pos v.length)
  rw [h.txRemain] at hremain
  exact hremain

/-- A byte that leaves its frame open is collected. -/
theorem txByte_open (h : EncodeProgress s d k u (b :: v) t) (hne : u.length + 1 ≠ s.capacity) (hv : v ≠ []) :
    EncodeProgress s d k (u ++ [b]) v (txByte b t) := by
  have hr : t.txRemain ≠ 1 := mt h.txRemain_eq_one_iff.mp hv
  have hne' : t.fcount.toNat + 1 ≠ t.capacity := by rwa [h.fcount, h.capacity]
  have hlen : (u ++ [b]).length = t.fcount.toNat + 1 := by rw [h.fcount]; simp
  have hcollected := txAccept_collected b h.fcount_lt
  rw [txAccept_fcount_toNat b h.fcount_lt, h.fcount, h.collected] at hcollected
  rw [txByte_of_open h.fcount_lt hne' hr]
  exact
    { mode := h.mode
      frameSize := h.frameSize
      params := h.params
      txTotal := h.txTotal
      stream := by rw [h.stream, List.append_cons]
      room := by rw [hlen, h.fcount]; exact Nat.lt_of_le_of_ne h.room hne
      fcount := (txAccept_fcount_toNat b h.fcount_lt).trans hlen.symm
      collected := by rw [hlen, h.fcount]; exact hcollected
      txIndex := h.txIndex
      txRemain := h.next_txRemain
      out := h.out }

/-- A byte that completes a frame of a session that goes on emits that frame. -/
theorem txByte_full (h : EncodeProgress s d k u (b :: v) t) (hfull : u.length + 1 = s.capacity) (hv : v ≠ []) :
    EncodeProgress s d (k + 1) [] v (txByte b t) := by
  have hr : t.txRemain ≠ 1 := mt h.txRemain_eq_one_iff.mp hv
  have hwrites := txByte_full_writes (b := b) h.fcount_lt (by rwa [h.fcount, h.capacity]) hr
  rw [hwrites]
  exact
    { mode := h.mode
      frameSize := h.frameSize
      params := h.params
      txTotal := h.txTotal
      stream := by
        rw [Nat.succ_mul, ← List.drop_drop, h.stream, List.append_cons]
        exact List.drop_left' (by simpa using hfull)
      room := (Nat.succ_pos _).trans_le hfull.le
      fcount := rfl
      collected := rfl
      txIndex := h.next_txIndex
      txRemain := h.next_txRemain
      out := h.next_out (.inl hfull) }

/-- The last byte emits the last frame and ends the session. -/
theorem txByte_last (h : EncodeProgress s d k u [b] t) (htotal : s.txTotal.toNat = d.length) :
    EncodeEnded s d (txByte b t) := by
  have hcount : ceilDiv d.length s.capacity = k + 1 := by
    rw [h.length_stream]
    exact ceilDiv_full_add (Nat.succ_pos _) h.room
  have hframes : t.framesNeeded = ceilDiv d.length s.capacity := by
    rw [State.framesNeeded_congr h.frameSize h.txTotal, ← htotal]
    rfl
  have hwrites := txByte_last_writes (b := b) h.fcount_lt (h.txRemain_eq_one_iff.mpr rfl)
  rw [hwrites]
  refine { out := ?_, mode := rfl, result := rfl, txRemain := rfl, fcount := rfl, txIndex := ?_ }
  · have hout := congrArg (· ++ [Item.event (.txDone (BitVec.ofNat 17 (k + 1)))]) (h.next_out (.inr rfl))
    simpa [encodeSessionItems_eq, hframes, hcount] using hout
  · rw [hcount]
    exact h.next_txIndex

end EncodeProgress

/-! ## The run -/

/-- The bytes still to come run the session to its end. -/
theorem run_txBytes {s : State} {d : List Byte} (hc : s.configValid = true) (htotal : s.txTotal.toNat = d.length)
    {v : List Byte} (hv : v ≠ []) {k : Nat} {u : List Byte} {t : State} (h : EncodeProgress s d k u v t)
    (hhost : t.host = txBytes v ++ s.host) :
    ∃ t', Sys2Proof.core.run v.length t = .next t' ∧ t'.host = s.host ∧ EncodeEnded s d t' := by
  induction v generalizing k u t with
  | nil => exact absurd rfl hv
  | cons b v ih =>
    have hissued : EncodeProgress s d k u (b :: v) (t.issued (txBytes v ++ s.host)) := { h with }
    have hstep := step_of_issue (i := .txByte b) hhost (hissued.exec_txByte hc)
    have hhost' := commandRule_host (.txByte b) (t.issued (txBytes v ++ s.host))
    rw [List.length_cons, run_succ _ hstep]
    by_cases hv' : v = []
    · subst hv'
      exact ⟨_, run_zero _, hhost', hissued.txByte_last htotal⟩
    · by_cases hfull : u.length + 1 = s.capacity
      · exact ih hv' (hissued.txByte_full hfull hv') hhost'
      · exact ih hv' (hissued.txByte_open hfull hv') hhost'

/-- TX_START opens the session of a stream that has bytes. -/
theorem txStart_progress {s : State} {d : List Byte} (hc : s.configValid = true)
    (hn : s.framesNeeded ≤ Config.maxFrames) (htotal : s.txTotal.toNat = d.length) (hd : d ≠ []) (rest : List Txn) :
    EncodeProgress s d 0 [] d (txStart (s.issued rest)) := by
  have h0 : s.txTotal ≠ 0 := fun h0 => hd (List.length_eq_zero_iff.mp (by rw [← htotal, h0]; rfl))
  rw [txStart_of_fits (s := s.issued rest) hc hn, if_neg (show (s.issued rest).txTotal ≠ 0 from h0)]
  exact
    { mode := rfl
      frameSize := rfl
      params := rfl
      txTotal := rfl
      stream := by simp
      room := State.capacity_pos hc
      fcount := rfl
      collected := rfl
      txIndex := rfl
      txRemain := htotal
      out := (List.append_nil _).symm }

/-- TX_START is the whole session of a stream of no bytes. -/
theorem txStart_ended {s : State} (hm : s.mode = .idle) (hc : s.configValid = true) (h0 : s.txTotal = 0)
    (rest : List Txn) : EncodeEnded s [] (txStart (s.issued rest)) := by
  have hn : s.framesNeeded ≤ Config.maxFrames := (State.framesNeeded_le_iff hc).mpr (by simp [h0])
  have hcount : ceilDiv ([] : List Byte).length s.capacity = 0 :=
    Nat.le_zero.mp ((ceilDiv_le_iff (State.capacity_pos hc)).mpr (Nat.zero_le _))
  rw [txStart_of_fits (s := s.issued rest) hc hn, if_pos (show (s.issued rest).txTotal = 0 from h0)]
  refine { out := ?_, mode := hm, result := rfl, txRemain := h0, fcount := rfl, txIndex := ?_ }
  · rw [encodeSessionItems_eq, hcount]
    rfl
  · rw [hcount]
    rfl

/-- TX_START and the stream's bytes run from IDLE to the end of the session. -/
theorem run_encodeSession {s : State} {d : List Byte} (hm : s.mode = .idle) (hc : s.configValid = true)
    (htotal : s.txTotal.toNat = d.length) (hn : s.framesNeeded ≤ Config.maxFrames) :
    ∃ t, Sys2Proof.core.run (d.length + 1) (s.withCommands (.txStart :: d.map Instr.txByte)) = .next t ∧
      t.host = s.host ∧ EncodeEnded s d t := by
  have hstep : step (s.withCommands (.txStart :: d.map Instr.txByte)) =
      .next (txStart (s.issued ((d.map Instr.txByte).map issue ++ s.host))) :=
    step_of_issue rfl (exec_of_idle rfl hm)
  have hbytes : (d.map Instr.txByte).map issue = txBytes d := List.map_map
  have hhost := commandRule_host .txStart (s.issued (txBytes d ++ s.host))
  rw [run_succ _ hstep, hbytes]
  by_cases hd : d = []
  · subst hd
    exact ⟨_, run_zero _, hhost, txStart_ended hm hc (BitVec.eq_of_toNat_eq htotal) _⟩
  · exact run_txBytes hc htotal hd (txStart_progress hc hn htotal hd _) hhost

/-- Settles O52: the session's run, and the frame count as TX_INDEX holds it. -/
theorem encodeSessionEmitsTheSplitFrames : Obligations.EncodeSessionEmitsTheSplitFrames := by
  intro s d hm hmin hmax htotal hfits
  have hc := s.configValid_iff.mpr ⟨hmin, hmax⟩
  have hn : s.framesNeeded ≤ Config.maxFrames := (State.framesNeeded_le_iff hc).mpr (htotal.trans_le hfits)
  obtain ⟨t, hrun, hhost, h⟩ := run_encodeSession hm hc htotal hn
  refine ⟨t, hrun, h.out, h.mode, h.result, h.txRemain, h.fcount, hhost, ?_⟩
  rw [h.txIndex, length_splitFrames]
  exact BitVec.toNat_ofNat _ _

end Sys2Proof.Machine
end

section
/-! Process, frame by frame (44_reassembler.md R84 to R87), and which indices the policies let pass (R85, R86). -/

namespace Sys2Proof.Machine

/-! ## Process (R84): its three checks in order -/

section
variable {p : Config.Params} {f : List Byte} {expected : Half} {cap : Nat} {skip : Bool} (seq : SeqMode)

/-- A frame whose checksum is another than the stored one. -/
theorem processFrame_of_mismatch (h : crcCompute p (f.take (cap + 4)) ≠ fieldAt f (cap + 4)) :
    processFrame p f expected cap skip seq =
      (expected, [.event (.rxCrcFail (fieldAt f 0) (fieldAt f (cap + 4)) (crcCompute p (f.take (cap + 4))))]) := by
  simp only [processFrame, frameDecode_of_ne h]

/-- A frame that Decode accepts and the policy refuses. -/
theorem processFrame_of_refused {index len : Half} {payload : List Byte}
    (h : frameDecode p f cap = .ok index len payload) (ha : admits index expected skip = false) :
    processFrame p f expected cap skip seq = (expected, [.event (.rxSeqReject index expected)]) := by
  simp [processFrame, h, ha]

/-- An admitted frame that declares more bytes than it has. -/
theorem processFrame_of_tooLong {index len : Half} {payload : List Byte}
    (h : frameDecode p f cap = .ok index len payload) (ha : admits index expected skip = true)
    (hl : cap < len.toNat) :
    processFrame p f expected cap skip seq = (expected, [.event (.rxLenReject index len)]) := by
  simp [processFrame, h, ha, hl]

/-- An admitted frame of legal length. -/
theorem processFrame_of_accepted {index len : Half} {payload : List Byte}
    (h : frameDecode p f cap = .ok index len payload) (ha : admits index expected skip = true)
    (hl : len.toNat ≤ cap) :
    processFrame p f expected cap skip seq =
      (seqUpdate index seq, (payload.take len.toNat).map Item.data ++ [.event (.rxAccept index len)]) := by
  simp [processFrame, h, ha, hl.not_gt]

end

/-! ## Admission (R85, R86) -/

theorem admits_strict_iff {index expected : Half} : admits index expected false = true ↔ index = expected := by
  simp [admits]

theorem admits_skip_iff {index expected : Half} :
    admits index expected true = true ↔ expected.toNat ≤ index.toNat := by
  simp [admits]

theorem admits_iff {index expected : Half} {skip : Bool} :
    admits index expected skip = true ↔
      (skip = false ∧ index = expected) ∨ (skip = true ∧ expected.toNat ≤ index.toNat) := by
  cases skip with
  | false => simpa using admits_strict_iff
  | true => simpa using admits_skip_iff

@[simp] theorem seqUpdate_pin (index : Half) : seqUpdate index .pin = index := rfl

@[simp] theorem seqUpdate_advance (index : Half) : seqUpdate index .advance = index + 1 := rfl

theorem seqUpdate_eq (index : Half) (seq : SeqMode) :
    seqUpdate index seq = if seq = .pin then index else index + 1 := by
  cases seq with
  | pin => rfl
  | advance => rfl

theorem toNat_half_add_one (k : Half) : (k + 1).toNat = (k.toNat + 1) % 65536 := BitVec.toNat_add k 1

/-- Settles O54: the two admission tests, on the index that SeqUpdate leaves. -/
theorem admissionAfterAnAdmittedFrame : Obligations.AdmissionAfterAnAdmittedFrame := by
  intro k idx
  refine ⟨admits_strict_iff, admits_strict_iff.trans ?_, admits_skip_iff, fun hk => admits_skip_iff.trans ?_,
    fun hk => admits_skip_iff.mpr ?_⟩
  · rw [← BitVec.toNat_inj, seqUpdate_advance, toNat_half_add_one]
  · have hlt : k.toNat + 1 < 65536 := by
      have hne : k.toNat ≠ 65535 := fun h => hk (BitVec.eq_of_toNat_eq h)
      have := k.isLt
      omega
    rw [seqUpdate_advance, toNat_half_add_one, Nat.mod_eq_of_lt hlt, Nat.succ_le_iff]
  · rw [hk]
    exact Nat.zero_le _

/-- The declared bytes of an admitted frame stand in the frame after its header (R70, R84). -/
theorem getElem?_payload {f : List Byte} {cap n k : Nat} (hk : k < n) (hn : n ≤ cap) :
    (((f.drop 4).take cap).take n)[k]? = f[4 + k]? := by
  rw [List.getElem?_take_of_lt hk, List.getElem?_take_of_lt (hk.trans_le hn), List.getElem?_drop]

theorem length_payload {f : List Byte} {cap n : Nat} (hlen : f.length = cap + 6) (hn : n ≤ cap) :
    (((f.drop 4).take cap).take n).length = n := by
  simp only [List.length_take, List.length_drop]
  omega

/-- Settles O53: the checks of Process in order, and the payload read byte by byte. -/
theorem processEmitsOneVerdictPerFrame : Obligations.ProcessEmitsOneVerdictPerFrame := by
  intro p f expected cap skip seq hlen
  refine ⟨_, _, fieldAt f 0, fieldAt f 2, rfl, rfl, rfl, rfl, fun hne => processFrame_of_mismatch seq hne,
    fun heq => ?_⟩
  have hdecode : frameDecode p f cap = .ok (fieldAt f 0) (fieldAt f 2) ((f.drop 4).take cap) := frameDecode_of_eq heq
  refine ⟨fun hskip hne => ?_, fun hskip hlt => ?_, fun hadmit => ⟨fun hlong => ?_, fun hfits => ?_⟩⟩
  · subst hskip
    exact processFrame_of_refused seq hdecode (Bool.eq_false_iff.mpr (mt admits_strict_iff.mp hne))
  · subst hskip
    exact processFrame_of_refused seq hdecode (Bool.eq_false_iff.mpr (mt admits_skip_iff.mp hlt.not_ge))
  · exact processFrame_of_tooLong seq hdecode (admits_iff.mpr hadmit) hlong
  · rw [← seqUpdate_eq]
    exact ⟨_, length_payload hlen hfits, fun k hk => getElem?_payload hk hfits,
      processFrame_of_accepted seq hdecode (admits_iff.mpr hadmit) hfits⟩

end Sys2Proof.Machine
end

section
/-! The reassembler's commands (44_reassembler.md R88 to R90): RX_START, RX_BYTE and RX_END. Each branch of their rules
is said once. -/

namespace Sys2Proof.Machine

/-! ## RX_START (R88) -/

theorem rxStart_of_invalid {s : State} (hc : s.configValid = false) : rxStart s = s.fail .errConfig := by
  simp [rxStart, hc]

theorem rxStart_of_valid {s : State} (hc : s.configValid = true) :
    rxStart s = { s with expected := 0, fcount := 0, phase := .frame, mode := .rx }.done := by
  simp [rxStart, hc]

/-- Settles O55: R88's one check, with a branch of the rule on each side. -/
theorem rxStartOpensTheSession : Obligations.RxStartOpensTheSession := by
  refine ⟨assembleWord_zero 0x50, illegalFormsRefused .rxStart, fun s =>
    ⟨exec_of_busy rfl, fun hm hc => ?_, fun hm hmin hmax => ?_⟩⟩
  · exact (exec_of_idle rfl hm).trans (congrArg _ (rxStart_of_invalid (s.configValid_eq_false_iff.mpr hc)))
  · exact (exec_of_idle rfl hm).trans (congrArg _ (rxStart_of_valid (s.configValid_iff.mpr ⟨hmin, hmax⟩)))

/-! ## RX_END (R90) -/

/-- RX_END in a decode session. -/
theorem exec_rxEnd_of_rx {s : State} (hm : s.mode = .rx) : exec .rxEnd s = .next (rxEnd s) :=
  congrArg _ (State.accepted_of_none rxEnd (error?_rxOnly_eq_none_iff.mpr hm))

/-- RX_END's writes: the bytes of an incomplete frame are those FCOUNT counts, none while the separator is due. -/
theorem rxEnd_writes (s : State) :
    rxEnd s = { s with
      mode := .idle, fcount := 0, phase := .frame, result := .ok
      out := s.out ++ [.event (.rxEnd (if s.phase = .frame then s.fcount else 0))] } := by
  unfold rxEnd
  cases s.phase with
  | frame => rfl
  | separator => rfl

/-- Settles O57: the mode's errors, and the rule's writes. -/
theorem rxEndClosesTheSession : Obligations.RxEndClosesTheSession := by
  refine ⟨assembleWord_zero 0x52, illegalFormsRefused .rxEnd, fun s => ⟨fun hm => ?_, fun hm => ?_, fun hm => ?_⟩⟩
  · exact exec_of_error (by rw [hm]; rfl)
  · exact exec_of_error (by rw [hm]; rfl)
  · rw [exec_rxEnd_of_rx hm, rxEnd_writes]

/-! ## RX_BYTE (R89) -/

/-- RX_BYTE in a decode session whose sequencing registers are in range. -/
theorem exec_rxByte_of_rx (b : Byte) {s : State} (hm : s.mode = .rx) (hr : s.decodeSessionInRange = true) :
    exec (.rxByte b) s = .next (rxByte b s) := by
  obtain ⟨⟨b', hi⟩, -⟩ | ⟨-, -, hno, -⟩ | ⟨-, -, he⟩ := exec_cases (.rxByte b) s
  · cases hi
  · exact absurd (hr.symm.trans hno) (by decide)
  · exact he.trans (congrArg _ (State.accepted_of_none _ (error?_rxOnly_eq_none_iff.mpr hm)))

/-- The collected bytes are those collected before, and the new one. -/
theorem rxAccept_collected (b : Byte) (s : State) :
    (rxAccept b s).bytesFrom 0 (s.fcount.toNat + 1) = s.bytesFrom 0 s.fcount.toNat ++ [b] := by
  rw [State.bytesFrom_add]
  congr 1
  · refine State.bytesFrom_ext fun k hk => ?_
    rw [byteAt_rxAccept, if_neg (by omega)]
  · simp [State.bytesFrom, byteAt_rxAccept]

/-- The byte completes the frame exactly when it is the last one FRAME_SIZE has room for. -/
theorem rxAccept_fcount_eq_iff (b : Byte) {s : State} (hf : s.fcount.toNat < s.frameSize.toNat) :
    (rxAccept b s).fcount = s.frameSize ↔ s.fcount.toNat + 1 = s.frameSize.toNat := by
  rw [← BitVec.toNat_inj, rxAccept_fcount_toNat b hf]

theorem rxByte_of_separator (b : Byte) {s : State} (hp : s.phase = .separator) :
    rxByte b s = { s with phase := .frame }.done := by
  obtain ⟨-, h⟩ | ⟨⟨hp', -⟩, -⟩ | ⟨⟨hp', -⟩, -⟩ := rxByte_cases b s
  · exact h
  · cases hp.symm.trans hp'
  · cases hp.symm.trans hp'

theorem rxByte_of_open (b : Byte) {s : State} (hp : s.phase = .frame)
    (hf : s.fcount.toNat + 1 < s.frameSize.toNat) : rxByte b s = (rxAccept b s).done := by
  have hiff := rxAccept_fcount_eq_iff b (s := s) (by omega)
  obtain ⟨hp', -⟩ | ⟨-, h⟩ | ⟨⟨-, hfull⟩, -⟩ := rxByte_cases b s
  · cases hp.symm.trans hp'
  · exact h
  · exact absurd (hiff.mp hfull) hf.ne

theorem rxByte_of_full (b : Byte) {s : State} (hp : s.phase = .frame)
    (hf : s.fcount.toNat + 1 = s.frameSize.toNat) :
    rxByte b s = (rxFrameComplete (rxToSeparator (rxAccept b s))).done := by
  have hiff := rxAccept_fcount_eq_iff b (s := s) (by omega)
  obtain ⟨hp', -⟩ | ⟨⟨-, hne⟩, -⟩ | ⟨-, h⟩ := rxByte_cases b s
  · cases hp.symm.trans hp'
  · exact absurd (hiff.mpr hf) hne
  · exact h

/-- A frame byte is stored at FBUF[FCOUNT], whether it completes the frame or not. -/
theorem rxByte_byteAt (b : Byte) {s : State} (hp : s.phase = .frame) (j : Nat) :
    (rxByte b s).byteAt j = if j = s.fcount.toNat then b else s.byteAt j := by
  rw [← byteAt_rxAccept]
  obtain ⟨hp', -⟩ | ⟨-, h⟩ | ⟨-, h⟩ := rxByte_cases b s
  · cases hp.symm.trans hp'
  · rw [h]; rfl
  · rw [h]; exact State.byteAt_congr (by simp) (by simp) j

/-- The frame that a byte completes: the collected bytes and the new one. -/
def State.rxFrameBytes (s : State) (b : Byte) : List Byte := s.bytesFrom 0 s.fcount.toNat ++ [b]

/-- CheckFrame's values for that frame, by their places in it (R75). -/
def State.rxCheck (s : State) (b : Byte) : FrameCheck :=
  let computed := crcCompute s.params ((s.rxFrameBytes b).take (s.frameSize.toNat - 2))
  let stored := Machine.fieldAt (s.rxFrameBytes b) (s.frameSize.toNat - 2)
  { ok := computed == stored
    idx := Machine.fieldAt (s.rxFrameBytes b) 0, len := Machine.fieldAt (s.rxFrameBytes b) 2
    stored := stored, computed := computed }

theorem State.rxCheck_ok (s : State) (b : Byte) :
    (s.rxCheck b).ok = decide ((s.rxCheck b).computed = (s.rxCheck b).stored) := rfl

/-- Process of that frame (R84). -/
def State.rxProcess (s : State) (b : Byte) : Half × List Item :=
  processFrame s.params (s.rxFrameBytes b) s.expected s.capacity s.allowSkip s.seqMode

section
variable (b : Byte) {s : State} (hc : s.configValid = true) (hf : s.fcount.toNat + 1 = s.frameSize.toNat)
include hc hf

/-- It stands in FBUF when it is checked. -/
theorem rxCompleted_bytes :
    (rxToSeparator (rxAccept b s)).bytesFrom 0 ((rxToSeparator (rxAccept b s)).capacity + 6) = s.rxFrameBytes b := by
  have hcap : (rxToSeparator (rxAccept b s)).capacity + 6 = s.fcount.toNat + 1 :=
    (State.capacity_add_overhead hc).trans hf.symm
  rw [hcap]
  exact rxAccept_collected b s

/-- CheckFrame's fields are those of the frame. -/
theorem rxCompleted_fieldAt {i : Nat} (hi : i + 1 < s.frameSize.toNat) :
    (rxToSeparator (rxAccept b s)).fieldAt i = fieldAt (s.rxFrameBytes b) i := by
  rw [← rxCompleted_bytes b hc hf, fieldAt_bytesFrom]
  exact hi.trans_eq (State.capacity_add_overhead hc).symm

/-- CheckFrame's values are those of the frame (R75). -/
theorem rxCompleted_frameCheck : (rxToSeparator (rxAccept b s)).frameCheck = s.rxCheck b := by
  have hmin := (s.configValid_iff.mp hc).1
  have hcap : (rxToSeparator (rxAccept b s)).capacity + 4 = s.frameSize.toNat - 2 := State.capacity_add_header hc
  have htake : (rxToSeparator (rxAccept b s)).bytesFrom 0 (s.frameSize.toNat - 2) =
      (s.rxFrameBytes b).take (s.frameSize.toNat - 2) := by
    rw [← rxCompleted_bytes b hc hf, State.take_bytesFrom]
    omega
  unfold State.frameCheck
  rw [hcap, htake, rxCompleted_fieldAt b hc hf (show 0 + 1 < _ by omega),
    rxCompleted_fieldAt b hc hf (show 2 + 1 < _ by omega), rxCompleted_fieldAt b hc hf (by omega)]
  rfl

/-- FrameComplete's verdict is Process's on the frame (R84). -/
theorem rxCompleted_process :
    (rxFrameComplete (rxToSeparator (rxAccept b s))).expected = (s.rxProcess b).1 ∧
      (rxFrameComplete (rxToSeparator (rxAccept b s))).out = s.out ++ (s.rxProcess b).2 := by
  have hprocess := rxFrameComplete_process (rxToSeparator (rxAccept b s))
  rwa [rxCompleted_bytes b hc hf] at hprocess

/-- A byte that completes a frame, written out: the registers of CheckFrame, and what Process says (R89). -/
theorem rxByte_full_writes (hp : s.phase = .frame) :
    rxByte b s = { s with
      fbuf := (rxByte b s).fbuf, fcount := 0, phase := .separator
      rxStored := (s.rxCheck b).stored, rxCalc := (s.rxCheck b).computed, crc := (s.rxCheck b).computed
      rxIndex := if (s.rxCheck b).computed = (s.rxCheck b).stored then (s.rxCheck b).idx else s.rxIndex
      rxLength := if (s.rxCheck b).computed = (s.rxCheck b).stored then (s.rxCheck b).len else s.rxLength
      lenOver := decide ((s.rxCheck b).computed = (s.rxCheck b).stored ∧ s.capacity < (s.rxCheck b).len.toNat)
      expected := (s.rxProcess b).1
      out := s.out ++ (s.rxProcess b).2
      result := .ok } := by
  obtain ⟨hexpected, hout⟩ := rxCompleted_process b hc hf
  have hcheck := rxCompleted_frameCheck b hc hf
  have hcap : (rxToSeparator (rxAccept b s)).capacity = s.capacity := rfl
  rw [rxByte_of_full b hp hf]
  apply State.ext <;>
    simp [hexpected, hout, rxFrameComplete_rxStored, rxFrameComplete_rxCalc, rxFrameComplete_crc,
      rxFrameComplete_rxIndex, rxFrameComplete_rxLength, rxFrameComplete_lenOver, checkFrame, lenOverFlag,
      hcheck, hcap, State.rxCheck_ok]

end

/-- A byte that leaves its frame open, written out (R89). -/
theorem rxByte_open_writes (b : Byte) {s : State} (hp : s.phase = .frame)
    (hf : s.fcount.toNat + 1 < s.frameSize.toNat) :
    rxByte b s = { s with fbuf := (rxByte b s).fbuf, fcount := s.fcount + 1, result := .ok } := by
  rw [rxByte_of_open b hp hf]
  rfl

/-- Settles O56: the three branches of the rule, and FBUF after each. -/
theorem rxByteFeedsTheReassembler : Obligations.RxByteFeedsTheReassembler := by
  refine ⟨illegalFormsRefused .rxByte, fun b s => ⟨toNat_assembleWord 0x51 b 0, fun hm => ?_, fun hm => ?_,
    fun hm hp => ?_, fun hm hp hmin hmax => ?_⟩⟩
  · exact exec_of_error (by rw [hm]; rfl)
  · exact exec_of_error (by rw [hm]; rfl)
  · rw [exec_rxByte_of_rx b hm (s.decodeSessionInRange_iff.mpr (.inl hp)), rxByte_of_separator b hp]
    rfl
  · have hc := s.configValid_iff.mpr ⟨hmin, hmax⟩
    have hrule (hlt : s.fcount.toNat < s.frameSize.toNat) : exec (.rxByte b) s = .next (rxByte b s) :=
      exec_rxByte_of_rx b hm (s.decodeSessionInRange_iff.mpr (.inr ⟨hc, hlt⟩))
    have hstored := (rxByte_byteAt b hp s.fcount.toNat).trans (if_pos rfl)
    have hkept (j : Nat) (hj : j ≠ s.fcount.toNat) := (rxByte_byteAt b hp j).trans (if_neg hj)
    refine ⟨fun hopen => ?_, fun hfull => ?_⟩
    · exact ⟨rxByte b s, hrule (by omega), rxByte_open_writes b hp hopen, hstored, hkept⟩
    · have hlast : s.frameSize.toNat - 1 = s.frameSize.toNat - 2 + 1 := by omega
      rw [hlast]
      exact ⟨rxByte b s, s.rxFrameBytes b, (s.rxCheck b).computed, (s.rxCheck b).stored, hrule (by omega), rfl, rfl,
        rfl, hstored, hkept, rxByte_full_writes b hc hfull hp⟩

end Sys2Proof.Machine
end

section
/-! Reassemble (44_reassembler.md R83): its rounds without their bound, and the order of the session's bytes. -/

namespace Sys2Proof.Machine

/-- The loop of R83 from a given expected index, on a bound it never meets. -/
def reassembleFrom (p : Config.Params) (fs : Nat) (skip : Bool) (seq : SeqMode) (stream : List Byte) (expected : Half) :
    Half × List Item :=
  reassembleLoop p fs skip seq (stream.length + 1) stream expected

/-- What R83 does after a frame: the separator is skipped, if the stream has one. -/
def reassembleAfter (p : Config.Params) (fs : Nat) (skip : Bool) (seq : SeqMode) :
    List Byte → Half → Half × List Item
  | [], expected => (expected, [.event (.rxEnd 0)])
  | _ :: rest, expected => reassembleFrom p fs skip seq rest expected

theorem reassemble_eq (p : Config.Params) (fs : Nat) (skip : Bool) (seq : SeqMode) (stream : List Byte) :
    reassemble p stream fs skip seq = reassembleFrom p fs skip seq stream 0 := rfl

section
variable {p : Config.Params} {fs : Nat} {skip : Bool} {seq : SeqMode}

/-! ## One round of the loop -/

theorem reassembleLoop_of_short (fuel : Nat) {stream : List Byte} (h : stream.length < fs) (expected : Half) :
    reassembleLoop p fs skip seq (fuel + 1) stream expected =
      (expected, [.event (.rxEnd (BitVec.ofNat 16 stream.length))]) := by
  simp only [reassembleLoop, if_pos h]

theorem reassembleLoop_of_last (fuel : Nat) {stream : List Byte} (h : stream.length = fs) (expected : Half) :
    reassembleLoop p fs skip seq (fuel + 1) stream expected =
      ((processFrame p stream expected (fs - 6) skip seq).1,
        (processFrame p stream expected (fs - 6) skip seq).2 ++ [.event (.rxEnd 0)]) := by
  simp only [reassembleLoop, if_neg h.not_lt, List.drop_of_length_le h.le, List.take_of_length_le h.le]
  rfl

theorem reassembleLoop_of_separator (fuel : Nat) {f : List Byte} (h : f.length = fs) (x : Byte) (rest : List Byte)
    (expected : Half) :
    reassembleLoop p fs skip seq (fuel + 1) (f ++ x :: rest) expected =
      ((reassembleLoop p fs skip seq fuel rest (processFrame p f expected (fs - 6) skip seq).1).1,
        (processFrame p f expected (fs - 6) skip seq).2 ++
          (reassembleLoop p fs skip seq fuel rest (processFrame p f expected (fs - 6) skip seq).1).2) := by
  have hlen : ¬(f ++ x :: rest).length < fs := by simp [h]
  simp only [reassembleLoop, if_neg hlen, List.drop_left' h, List.take_left' h]
  rfl

/-- A stream is shorter than a frame, is a frame, or is a frame, a separator and the rest. -/
theorem stream_cases (fs : Nat) (stream : List Byte) :
    stream.length < fs ∨ stream.length = fs ∨ ∃ f x rest, f.length = fs ∧ stream = f ++ x :: rest := by
  obtain hlt | heq | hgt := Nat.lt_trichotomy stream.length fs
  · exact .inl hlt
  · exact .inr (.inl heq)
  · obtain ⟨x, rest, hdrop⟩ := List.exists_cons_of_length_pos (l := stream.drop fs) (by rw [List.length_drop]; omega)
    exact .inr (.inr ⟨stream.take fs, x, rest, List.length_take_of_le hgt.le, by rw [← hdrop, List.take_append_drop]⟩)

/-- The loop's bound does not matter while it exceeds the stream's length: each round takes a separator at least. -/
theorem reassembleLoop_eq_of_lt {fuel fuel' : Nat} {stream : List Byte} (h : stream.length < fuel)
    (h' : stream.length < fuel') (expected : Half) :
    reassembleLoop p fs skip seq fuel stream expected = reassembleLoop p fs skip seq fuel' stream expected := by
  induction fuel generalizing fuel' stream expected with
  | zero => omega
  | succ fuel ih =>
    cases fuel' with
    | zero => omega
    | succ fuel' =>
      obtain hshort | hlast | ⟨f, x, rest, hf, rfl⟩ := stream_cases fs stream
      · rw [reassembleLoop_of_short fuel hshort, reassembleLoop_of_short fuel' hshort]
      · rw [reassembleLoop_of_last fuel hlast, reassembleLoop_of_last fuel' hlast]
      · rw [List.length_append, List.length_cons] at h h'
        have hrest := ih (fuel' := fuel') (stream := rest) (by omega) (by omega)
        rw [reassembleLoop_of_separator fuel hf, reassembleLoop_of_separator fuel' hf, hrest]

/-! ## The rounds without the bound -/

theorem reassembleFrom_of_short {stream : List Byte} (h : stream.length < fs) (expected : Half) :
    reassembleFrom p fs skip seq stream expected = (expected, [.event (.rxEnd (BitVec.ofNat 16 stream.length))]) :=
  reassembleLoop_of_short _ h expected

/-- A frame is processed, and what comes after it goes on from the expected index that this leaves. -/
theorem reassembleFrom_append {f : List Byte} (h : f.length = fs) (rest : List Byte) (expected : Half) :
    reassembleFrom p fs skip seq (f ++ rest) expected =
      ((reassembleAfter p fs skip seq rest (processFrame p f expected (fs - 6) skip seq).1).1,
        (processFrame p f expected (fs - 6) skip seq).2 ++
          (reassembleAfter p fs skip seq rest (processFrame p f expected (fs - 6) skip seq).1).2) := by
  cases rest with
  | nil =>
    rw [List.append_nil]
    exact reassembleLoop_of_last _ h expected
  | cons x rest =>
    rw [reassembleFrom, reassembleLoop_of_separator _ h, reassembleLoop_eq_of_lt (fuel' := rest.length + 1)]
    · rfl
    · rw [List.length_append, List.length_cons]; omega
    · exact Nat.lt_succ_self _

end

end Sys2Proof.Machine
end

section
/-! A whole decode session (44_reassembler.md R91): RX_START, RX_BYTE for each byte of a stream, and RX_END emit what
Reassemble returns. In a session the items emitted so far and those that Reassemble makes of the collected bytes and the
bytes still to come are, together, the same after every byte. -/

namespace Sys2Proof.Machine

/-! ## What is still to come -/

/-- What Reassemble makes of the bytes `v` still to come, after the bytes of an open frame that FBUF holds. -/
def State.rxRemaining (s : State) (v : List Byte) : Half × List Item :=
  match s.phase with
  | .frame =>
    reassembleFrom s.params s.frameSize.toNat s.allowSkip s.seqMode (s.bytesFrom 0 s.fcount.toNat ++ v) s.expected
  | .separator => reassembleAfter s.params s.frameSize.toNat s.allowSkip s.seqMode v s.expected

/-- EXPECTED and the output stream at the session's end, if the bytes `v` are still to come. -/
def State.rxOutcome (s : State) (v : List Byte) : Half × List Item :=
  ((s.rxRemaining v).1, s.out ++ (s.rxRemaining v).2)

theorem State.rxRemaining_of_frame {s : State} (hp : s.phase = .frame) (v : List Byte) :
    s.rxRemaining v =
      reassembleFrom s.params s.frameSize.toNat s.allowSkip s.seqMode (s.bytesFrom 0 s.fcount.toNat ++ v)
        s.expected := by
  simp only [State.rxRemaining, hp]

theorem State.rxRemaining_of_separator {s : State} (hp : s.phase = .separator) (v : List Byte) :
    s.rxRemaining v = reassembleAfter s.params s.frameSize.toNat s.allowSkip s.seqMode v s.expected := by
  simp only [State.rxRemaining, hp]

/-! ## Each byte keeps the session's outcome -/

/-- A separator is skipped; no bytes of a frame are collected while it is due. -/
theorem rxByte_outcome_of_separator (b : Byte) {s : State} (hp : s.phase = .separator) (hf : s.fcount = 0)
    (v : List Byte) : (rxByte b s).rxOutcome v = s.rxOutcome (b :: v) := by
  have hnext : ({ s with phase := .frame }.done).rxRemaining v = s.rxRemaining (b :: v) := by
    rw [State.rxRemaining_of_separator hp, State.rxRemaining_of_frame rfl]
    show reassembleFrom _ _ _ _ (State.bytesFrom _ 0 s.fcount.toNat ++ v) _ = _
    rw [hf]
    rfl
  rw [rxByte_of_separator b hp, State.rxOutcome, hnext]
  rfl

/-- A byte of an open frame is collected. -/
theorem rxByte_outcome_of_open (b : Byte) {s : State} (hp : s.phase = .frame)
    (hf : s.fcount.toNat + 1 < s.frameSize.toNat) (v : List Byte) :
    (rxByte b s).rxOutcome v = s.rxOutcome (b :: v) := by
  have hcollected : (rxAccept b s).done.bytesFrom 0 (rxAccept b s).done.fcount.toNat = s.rxFrameBytes b := by
    rw [State.bytesFrom_done, State.done_eq, State.setResult_fcount, rxAccept_fcount_toNat b (by omega)]
    exact rxAccept_collected b s
  have hnext : (rxAccept b s).done.rxRemaining v = s.rxRemaining (b :: v) := by
    rw [State.rxRemaining_of_frame hp, State.rxRemaining_of_frame (s := (rxAccept b s).done) hp, hcollected,
      List.append_cons]
    rfl
  rw [rxByte_of_open b hp hf, State.rxOutcome, hnext]
  rfl

/-- A byte that completes a frame makes a round of Reassemble: the frame is processed. -/
theorem rxByte_outcome_of_full (b : Byte) {s : State} (hc : s.configValid = true) (hp : s.phase = .frame)
    (hf : s.fcount.toNat + 1 = s.frameSize.toNat) (v : List Byte) :
    (rxByte b s).rxOutcome v = s.rxOutcome (b :: v) := by
  have hlen : (s.rxFrameBytes b).length = s.frameSize.toNat := by simp [State.rxFrameBytes, hf]
  have hround := reassembleFrom_append (p := s.params) (skip := s.allowSkip) (seq := s.seqMode) hlen v s.expected
  have hremaining : s.rxRemaining (b :: v) =
      ((reassembleAfter s.params s.frameSize.toNat s.allowSkip s.seqMode v (s.rxProcess b).1).1,
        (s.rxProcess b).2 ++
          (reassembleAfter s.params s.frameSize.toNat s.allowSkip s.seqMode v (s.rxProcess b).1).2) := by
    rw [State.rxRemaining_of_frame hp, List.append_cons]
    exact hround
  rw [State.rxOutcome, State.rxOutcome, hremaining, rxByte_full_writes b hc hf hp,
    State.rxRemaining_of_separator rfl, ← List.append_assoc]

/-- A byte of a legal decode session leaves what the session will have emitted at its end. -/
theorem rxByte_outcome (b : Byte) {s : State} (h : s.decodeLegal) (v : List Byte) :
    (rxByte b s).rxOutcome v = s.rxOutcome (b :: v) := by
  obtain ⟨hc, hlt, hsep⟩ := h
  cases hp : s.phase with
  | separator => exact rxByte_outcome_of_separator b hp (hsep hp) v
  | frame =>
    obtain hopen | hfull := Nat.lt_or_eq_of_le (Nat.succ_le_of_lt hlt)
    · exact rxByte_outcome_of_open b hp hopen v
    · exact rxByte_outcome_of_full b hc hp hfull v

/-- RX_END emits what Reassemble does at the end of the bytes: the count of those of an incomplete frame. -/
theorem rxEnd_outcome {s : State} (h : s.decodeLegal) : s.rxOutcome [] = ((rxEnd s).expected, (rxEnd s).out) := by
  obtain ⟨-, hlt, -⟩ := h
  rw [State.rxOutcome, rxEnd_writes]
  cases hp : s.phase with
  | separator =>
    rw [State.rxRemaining_of_separator hp]
    rfl
  | frame =>
    have hcount : BitVec.ofNat 16 s.fcount.toNat = s.fcount := by simp
    rw [State.rxRemaining_of_frame hp, List.append_nil, reassembleFrom_of_short (by rwa [s.length_bytesFrom]),
      s.length_bytesFrom, hcount]
    rfl

/-! ## The run -/

/-- A legal decode session takes any byte and stays one. -/
theorem rxByte_decodeLegal (b : Byte) {s : State} (hm : s.mode = .rx) (h : s.decodeLegal) :
    (rxByte b s).mode = .rx ∧ (rxByte b s).decodeLegal := by
  have hm' : (rxByte b s).mode = .rx := (congrArg State.mode (rxByte_writesOnly b s)).trans hm
  obtain ⟨-, -, hrx⟩ := rxByte_sessionLegal b hm h
  exact ⟨hm', hrx hm'⟩

theorem exec_rxByte_of_legal (b : Byte) {s : State} (hm : s.mode = .rx) (h : s.decodeLegal) :
    exec (.rxByte b) s = .next (rxByte b s) := by
  obtain ⟨hc, hlt, -⟩ := h
  exact exec_rxByte_of_rx b hm (s.decodeSessionInRange_iff.mpr (.inr ⟨hc, hlt⟩))

/-- The bytes still to come, and RX_END, run the session to its end. -/
theorem run_rxBytes {s : State} {v : List Byte} {rest : List Txn} (hm : s.mode = .rx) (h : s.decodeLegal)
    (hhost : s.host = rxBytes v ++ issue .rxEnd :: rest) :
    ∃ t, Sys2Proof.core.run (v.length + 1) s = .next (rxEnd t) ∧
      ((rxEnd t).expected, (rxEnd t).out) = s.rxOutcome v ∧ t.host = rest := by
  induction v generalizing s with
  | nil =>
    have hstep : step s = .next (rxEnd (s.issued rest)) :=
      step_of_issue hhost (exec_rxEnd_of_rx (s := s.issued rest) hm)
    exact ⟨s.issued rest, (run_succ 0 hstep).trans (run_zero _), (rxEnd_outcome (s := s.issued rest) h).symm, rfl⟩
  | cons b v ih =>
    have hissued : (s.issued (rxBytes v ++ issue .rxEnd :: rest)).decodeLegal := h
    have hstep := step_of_issue (i := .rxByte b) hhost (exec_rxByte_of_legal b hm hissued)
    have hhost' := commandRule_host (.rxByte b) (s.issued (rxBytes v ++ issue .rxEnd :: rest))
    obtain ⟨hm', h'⟩ := rxByte_decodeLegal b (s := s.issued (rxBytes v ++ issue .rxEnd :: rest)) hm hissued
    obtain ⟨t, hrun, hout, ht⟩ := ih hm' h' hhost'
    exact ⟨t, (run_succ _ hstep).trans hrun, hout.trans (rxByte_outcome b hissued v), ht⟩

/-- RX_START opens a legal decode session (R88). -/
theorem rxStart_decodeLegal {s : State} (hc : s.configValid = true) :
    (rxStart s).mode = .rx ∧ (rxStart s).decodeLegal := by
  have hpos : 0 < s.frameSize.toNat := by have := (s.configValid_iff.mp hc).1; omega
  rw [rxStart_of_valid hc]
  exact ⟨rfl, hc, hpos, fun _ => rfl⟩

/-- The outcome of a session that RX_START opened is that of Reassemble. -/
theorem rxStart_outcome {s : State} (hc : s.configValid = true) (stream : List Byte) :
    (rxStart s).rxOutcome stream =
      ((reassemble s.params stream s.frameSize.toNat s.allowSkip s.seqMode).1,
        s.out ++ (reassemble s.params stream s.frameSize.toNat s.allowSkip s.seqMode).2) := by
  rw [rxStart_of_valid hc, reassemble_eq]
  rfl

/-- Settles O58: RX_START opens a session whose outcome is that of Reassemble, and the bytes keep it. -/
theorem decodeSessionIsReassemble : Obligations.DecodeSessionIsReassemble := by
  intro s stream hm hmin hmax
  have hc : (s.issued (rxBytes stream ++ issue .rxEnd :: s.host)).configValid = true :=
    s.configValid_iff.mpr ⟨hmin, hmax⟩
  have hhost : (s.withCommands (.rxStart :: stream.map Instr.rxByte ++ [.rxEnd])).host =
      issue .rxStart :: (rxBytes stream ++ issue .rxEnd :: s.host) := by
    simp [State.withCommands, rxBytes]
  have hstep : step (s.withCommands (.rxStart :: stream.map Instr.rxByte ++ [.rxEnd])) =
      .next (rxStart (s.issued (rxBytes stream ++ issue .rxEnd :: s.host))) :=
    step_of_issue hhost (exec_of_idle rfl hm)
  obtain ⟨hmode, hlegal⟩ := rxStart_decodeLegal hc
  obtain ⟨t, hrun, hout, ht⟩ := run_rxBytes hmode hlegal (commandRule_host .rxStart _)
  obtain ⟨hexpected, hitems⟩ := Prod.mk.inj (hout.trans (rxStart_outcome hc stream))
  exact ⟨rxEnd t, (run_succ _ hstep).trans hrun, hitems, hexpected, rfl, rfl, rfl, rfl, ht⟩

end Sys2Proof.Machine
end

section
/-! The round trip (44_reassembler.md R92): the frames of Split, each with a separator, reassembled in strict mode. -/

namespace Sys2Proof.Machine

/-! ## The Data items of an item sequence -/

theorem dataItems_append (u v : List Item) : dataItems (u ++ v) = dataItems u ++ dataItems v := by
  induction u with
  | nil => rfl
  | cons i u ih =>
    cases i with
    | data b => exact congrArg (b :: ·) ih
    | event e => exact ih

@[simp] theorem dataItems_map_data (bs : List Byte) : dataItems (bs.map Item.data) = bs := by
  induction bs with
  | nil => rfl
  | cons b bs ih => exact congrArg (b :: ·) ih

@[simp] theorem dataItems_event (e : Event) : dataItems [.event e] = [] := rfl

/-! ## Frames with separators -/

/-- A byte stream of frames, each with the separator after it. -/
def separated (blocks : List (List Byte × Byte)) : List Byte := blocks.flatMap fun x => x.1 ++ [x.2]

theorem separated_cons (f : List Byte) (x : Byte) (blocks : List (List Byte × Byte)) :
    separated ((f, x) :: blocks) = f ++ x :: separated blocks := by
  simp [separated]

theorem separated_eq_nil_iff {blocks : List (List Byte × Byte)} : separated blocks = [] ↔ blocks = [] := by
  cases blocks with
  | nil => exact iff_of_true rfl rfl
  | cons x blocks => simp [separated]

section
variable {p : Config.Params} {fs : Nat} {skip : Bool} {seq : SeqMode}

/-- The last separator may be missing: R83 reports 0 discarded bytes after a frame with or without it. -/
theorem reassembleFrom_dropLast (hfs : 0 < fs) {blocks : List (List Byte × Byte)}
    (hlen : ∀ x ∈ blocks, x.1.length = fs) (expected : Half) :
    reassembleFrom p fs skip seq (separated blocks).dropLast expected =
      reassembleFrom p fs skip seq (separated blocks) expected := by
  induction blocks generalizing expected with
  | nil => rfl
  | cons b blocks ih =>
    obtain ⟨f, x⟩ := b
    obtain ⟨hf, hblocks⟩ := List.forall_mem_cons.mp hlen
    rw [separated_cons, List.dropLast_append_of_ne_nil (List.cons_ne_nil _ _), reassembleFrom_append hf,
      reassembleFrom_append hf]
    by_cases hnil : separated blocks = []
    · have hend (e : Half) : reassembleAfter p fs skip seq [x] e = reassembleAfter p fs skip seq [] e :=
        reassembleFrom_of_short hfs e
      rw [hnil, List.dropLast_singleton, hend]
    · have hrest (e : Half) : reassembleAfter p fs skip seq (x :: (separated blocks).dropLast) e =
          reassembleAfter p fs skip seq (x :: separated blocks) e := ih hblocks e
      rw [List.dropLast_cons_of_ne_nil hnil, hrest]

theorem dataItems_reassembleFrom_nil (hfs : 0 < fs) (expected : Half) :
    dataItems (reassembleFrom p fs skip seq [] expected).2 = [] := by
  rw [reassembleFrom_of_short hfs, dataItems_event]

/-- The Data items of a stream that begins with a frame and its separator. -/
theorem dataItems_reassembleFrom_cons {f : List Byte} (hf : f.length = fs) (x : Byte) (stream : List Byte)
    (expected : Half) :
    dataItems (reassembleFrom p fs skip seq (f ++ x :: stream) expected).2 =
      dataItems (processFrame p f expected (fs - 6) skip seq).2 ++
        dataItems (reassembleFrom p fs skip seq stream (processFrame p f expected (fs - 6) skip seq).1).2 := by
  rw [reassembleFrom_append hf, dataItems_append]
  rfl

end

/-! ## Split's frames in strict mode -/

/-- The frames `k`, `k + 1`, … of Split, `m` of them, each with its separator. -/
def splitBlocks (p : Config.Params) (d : List Byte) (cap : Nat) (sep : Nat → Byte) (k m : Nat) :
    List (List Byte × Byte) :=
  (List.range' k m).map fun j => ((splitFrame p d cap j).bytes, sep j)

theorem separated_splitBlocks (p : Config.Params) (d : List Byte) (cap : Nat) (sep : Nat → Byte) :
    separated (splitBlocks p d cap sep 0 (ceilDiv d.length cap)) =
      (splitFrames p d cap).flatMap fun f => f.bytes ++ [sep f.index] := by
  rw [separated, splitBlocks, splitFrames, List.flatMap_map, List.flatMap_map, List.range_eq_range']
  rfl

section
variable {p : Config.Params} {d : List Byte} {cap : Nat} {sep : Nat → Byte}

theorem separated_splitBlocks_succ (k m : Nat) :
    separated (splitBlocks p d cap sep k (m + 1)) =
      (splitFrame p d cap k).bytes ++ sep k :: separated (splitBlocks p d cap sep (k + 1) m) :=
  separated_cons _ _ _

theorem length_of_mem_splitBlocks {k m : Nat} {x : List Byte × Byte} (hx : x ∈ splitBlocks p d cap sep k m) :
    x.1.length = cap + 6 := by
  obtain ⟨j, -, rfl⟩ := List.mem_map.mp hx
  exact length_splitFrame_bytes p d cap j

theorem length_splitSlice_le (d : List Byte) (cap k : Nat) : (splitSlice d cap k).length ≤ cap := by
  rw [length_splitSlice]
  exact Nat.min_le_left _ _

/-- Decode gives a frame's index, its slice's length, and its slice with the padding. -/
theorem frameDecode_splitFrame (p : Config.Params) (d : List Byte) (cap k : Nat) :
    frameDecode p (splitFrame p d cap k).bytes cap =
      .ok (BitVec.ofNat 16 k) (BitVec.ofNat 16 (splitSlice d cap k).length)
        (splitSlice d cap k ++ List.replicate (cap - (splitSlice d cap k).length) 0) := by
  have hframe : (splitFrame p d cap k).bytes = frameEncode p (BitVec.ofNat 16 k)
      (BitVec.ofNat 16 (splitSlice d cap k).length) cap (splitSlice d cap k) := by
    rw [length_splitSlice]
    rfl
  rw [hframe]
  exact frameDecode_frameEncode p _ _ (length_splitSlice_le d cap k)

/-- A frame with the expected index gives its slice. -/
theorem processFrame_splitFrame_of_eq (hcap : cap < 65536) (k : Nat) (seq : SeqMode) :
    processFrame p (splitFrame p d cap k).bytes (BitVec.ofNat 16 k) cap false seq =
      (seqUpdate (BitVec.ofNat 16 k) seq, (splitSlice d cap k).map Item.data ++
        [.event (.rxAccept (BitVec.ofNat 16 k) (BitVec.ofNat 16 (splitSlice d cap k).length))]) := by
  have hle := length_splitSlice_le d cap k
  have hlen : (BitVec.ofNat 16 (splitSlice d cap k).length).toNat = (splitSlice d cap k).length := by
    rw [BitVec.toNat_ofNat, Nat.mod_eq_of_lt (by omega)]
  rw [processFrame_of_accepted seq (frameDecode_splitFrame p d cap k) (admits_strict_iff.mpr rfl) (hlen.trans_le hle),
    hlen, List.take_left]

/-- Every other frame is rejected and gives no byte. -/
theorem processFrame_splitFrame_of_ne {k : Nat} {expected : Half} (hne : BitVec.ofNat 16 k ≠ expected) (seq : SeqMode) :
    processFrame p (splitFrame p d cap k).bytes expected cap false seq =
      (expected, [.event (.rxSeqReject (BitVec.ofNat 16 k) expected)]) :=
  processFrame_of_refused seq (frameDecode_splitFrame p d cap k)
    (Bool.eq_false_iff.mpr (mt admits_strict_iff.mp hne))

/-- In ADVANCE mode each frame has the index that the one before it left to expect, so all slices are emitted. -/
theorem dataItems_reassembleFrom_advance (hcap : cap < 65536) (k m : Nat) :
    dataItems (reassembleFrom p (cap + 6) false .advance (separated (splitBlocks p d cap sep k m))
        (BitVec.ofNat 16 k)).2 =
      (List.range' k m).flatMap (splitSlice d cap) := by
  induction m generalizing k with
  | zero => exact dataItems_reassembleFrom_nil (Nat.succ_pos _) _
  | succ m ih =>
    have hframe := processFrame_splitFrame_of_eq (p := p) (d := d) hcap k .advance
    have hnext : seqUpdate (BitVec.ofNat 16 k) .advance = BitVec.ofNat 16 (k + 1) := (BitVec.ofNat_add k 1).symm
    rw [separated_splitBlocks_succ, dataItems_reassembleFrom_cons (length_splitFrame_bytes p d cap k),
      Nat.add_sub_cancel, hframe, hnext, ih (k + 1), dataItems_append]
    simp [List.range'_succ]

/-- In PIN mode with expected index 0, no later frame has that index, so none is admitted (R92). -/
theorem dataItems_reassembleFrom_pin_later {k m : Nat} (hk : 0 < k) (hm : k + m ≤ 65536) :
    dataItems (reassembleFrom p (cap + 6) false .pin (separated (splitBlocks p d cap sep k m)) 0).2 = [] := by
  induction m generalizing k with
  | zero => exact dataItems_reassembleFrom_nil (Nat.succ_pos _) _
  | succ m ih =>
    have hne : BitVec.ofNat 16 k ≠ 0 := by
      intro h
      have hzero := congrArg BitVec.toNat h
      rw [BitVec.toNat_ofNat, Nat.mod_eq_of_lt (by omega)] at hzero
      exact hk.ne' hzero
    have hframe := processFrame_splitFrame_of_ne (p := p) (d := d) (cap := cap) hne .pin
    rw [separated_splitBlocks_succ, dataItems_reassembleFrom_cons (length_splitFrame_bytes p d cap k),
      Nat.add_sub_cancel, hframe, ih (Nat.succ_pos k) (by omega)]
    rfl

/-- In PIN mode only frame 0 is admitted: it leaves its own index to expect. -/
theorem dataItems_reassembleFrom_pin (hcap : cap < 65536) {n : Nat} (hn : n ≤ 65536) (hpos : 0 < n) :
    dataItems (reassembleFrom p (cap + 6) false .pin (separated (splitBlocks p d cap sep 0 n)) 0).2 = d.take cap := by
  obtain ⟨m, rfl⟩ := Nat.exists_eq_add_of_lt hpos
  have hframe := processFrame_splitFrame_of_eq (p := p) (d := d) hcap 0 .pin
  change processFrame _ _ 0 _ _ _ = (0, _) at hframe
  have hfirst : splitSlice d cap 0 = d.take cap := by rw [splitSlice_eq, Nat.zero_mul, List.drop_zero]
  have hlater := dataItems_reassembleFrom_pin_later (p := p) (d := d) (cap := cap) (sep := sep) Nat.one_pos
    (show 1 + m ≤ 65536 by omega)
  rw [Nat.zero_add, separated_splitBlocks_succ, dataItems_reassembleFrom_cons (length_splitFrame_bytes p d cap 0),
    Nat.add_sub_cancel, hframe, dataItems_append, dataItems_map_data, hfirst]
  simpa using hlater

end

/-- Settles O59: both modes frame by frame, and the last separator. -/
theorem splitThenReassembleIsTheIdentity : Obligations.SplitThenReassembleIsTheIdentity := by
  intro p d cap sep stream seq hpos hcap hd hstream
  have hcap' : cap < 65536 := by omega
  rw [← separated_splitBlocks] at hstream
  have hpin : dataItems (reassemble p stream (cap + 6) false .pin).2 = d.take cap := by
    obtain rfl | hne := eq_or_ne d []
    · have hzero : ceilDiv ([] : List Byte).length cap = 0 := Nat.le_zero.mp ((ceilDiv_le_iff hpos).mpr (Nat.zero_le _))
      rw [hstream, hzero, List.take_nil]
      exact dataItems_reassembleFrom_nil (Nat.succ_pos _) _
    · have hframe : 0 < ceilDiv d.length cap :=
        (lt_ceilDiv_iff hpos).mpr (by rw [Nat.zero_mul]; exact List.length_pos_of_ne_nil hne)
      rw [hstream]
      exact dataItems_reassembleFrom_pin hcap' ((ceilDiv_le_iff hpos).mpr hd) hframe
  refine ⟨?_, fun hle => ?_, fun _ => hpin, ?_⟩
  · rw [hstream, reassemble_eq]
    refine (dataItems_reassembleFrom_advance hcap' 0 _).trans ?_
    rw [← List.range_eq_range', flatMap_splitSlice, List.take_of_length_le ((ceilDiv_le_iff hpos).mp le_rfl)]
  · rw [hpin, List.take_of_length_le hle]
  · rw [hstream, reassemble_eq, reassemble_eq]
    exact reassembleFrom_dropLast (Nat.succ_pos _) (fun x hx => length_of_mem_splitBlocks hx) 0

end Sys2Proof.Machine
end

section
/-! The control commands and the register window (45_control.md R93 to R96): NOP and ABORT, what a read of each offset
returns, and what a write to each offset does. -/

namespace Sys2Proof.Machine

/-! ## NOP and ABORT (R93, R94) -/

/-- A command that every mode accepts runs its own rule in each of them. -/
theorem exec_of_always {i : Instr} (hi : commandGuard i = .always) (s : State) :
    exec i s = .next (commandRule i s) := by
  obtain ⟨⟨b, rfl⟩, -⟩ | ⟨⟨b, rfl⟩, -⟩ | ⟨-, -, h⟩ := exec_cases i s
  · cases hi
  · cases hi
  · rw [h, hi, State.accepted_of_none _ rfl]

/-- Settles O32: NOP's own rule writes RESULT alone, and no mode keeps it from running. -/
theorem nopOnlyClearsResult : Obligations.NopOnlyClearsResult :=
  ⟨assembleWord_zero 0x00, illegalFormsRefused .nop, exec_of_always rfl⟩

/-- Settles O33: ABORT's own rule is four writes, and no mode keeps it from running. -/
theorem abortEndsTheSessionSilently : Obligations.AbortEndsTheSessionSilently :=
  ⟨assembleWord_zero 0x60, illegalFormsRefused .abort, exec_of_always rfl⟩

/-! ## A register read (R95) -/

/-- STATUS, as a number. -/
theorem State.toNat_statusWord (s : State) :
    s.statusWord.toNat = s.result.code.toNat + 16 * s.mode.code.toNat + 64 * s.lenOver.toNat := by
  rw [State.statusWord, toNat_append_setWidth (by decide), toNat_append_eq, BitVec.toNat_ofBool]
  omega

/-- CONFIG, as a number. -/
theorem State.toNat_configWord (s : State) :
    s.configWord.toNat = s.frameSize.toNat + 65536 * s.allowSkip.toNat + 131072 * s.seqMode.bit.toNat := by
  rw [State.configWord, toNat_append_setWidth (by decide), toNat_append_eq, BitVec.toNat_ofBool]
  omega

/-- RX_CRC, as a number. -/
theorem State.toNat_rxCrcWord (s : State) : s.rxCrcWord.toNat = s.rxStored.toNat + 65536 * s.rxCalc.toNat :=
  toNat_append_eq _ _

/-- FCOUNT with PHASE, as a number. -/
theorem State.toNat_fcountWord (s : State) : s.fcountWord.toNat = s.fcount.toNat + 65536 * s.phase.bit.toNat :=
  toNat_append_setWidth (by decide) _ _

/-- A read is the next step: the host gets the value the register has, and nothing else changes. -/
theorem step_of_read {s : State} {rest : List Txn} {off : Byte} (h : s.host = .rd off :: rest) :
    step s = .next { s with host := rest, reads := s.reads ++ [s.readReg off] } := step_of_host h

/-- Settles O9: each offset's register is the sum of its fields at their places. -/
theorem registerReadReturnsTheFields : Obligations.RegisterReadReturnsTheFields := by
  intro s rest off hh
  refine ⟨s.readReg off, step_of_read hh, ?cmd, ?status, ?config, ?crc, ?bptr, ?bufData, ?txIndex, ?txLength, ?txTotal,
    ?txRemain, ?rxIndex, ?rxLength, ?rxCrc, ?expected, ?fcount, ?unmapped⟩
  case unmapped => intro h; rw [readReg_zero s (.inr h)]; rfl
  all_goals rintro rfl
  case cmd => rw [readReg_zero s (.inl rfl)]; rfl
  case status => exact s.toNat_statusWord
  case config => exact s.toNat_configWord
  case rxCrc => exact s.toNat_rxCrcWord
  case fcount => exact s.toNat_fcountWord
  case txTotal => exact readReg_txTotal s
  case txRemain => exact readReg_txRemain s
  all_goals exact BitVec.toNat_setWidth_of_le (by decide)

/-! ## A register write (R96) -/

/-- The offsets of the RW registers, listed. -/
theorem writableOffset_iff {off : Byte} :
    writableOffset off = true ↔ off ∈ ([0x08, 0x0C, 0x10, 0x18, 0x1C, 0x20] : List Byte) := by
  simp [writableOffset, or_assoc]

/-- CMD is none of the RW registers: a write to it is a command. -/
theorem ne_cmdOffset_of_writable {off : Byte} (h : writableOffset off = true) : off ≠ cmdOffset := by
  rintro rfl
  exact absurd h (by decide)

/-- A write at an offset that is no RW register's is rejected in every mode. -/
theorem writeReg_of_not_writable {off : Byte} (hw : writableOffset off ≠ true) (s : State) (v : Word) :
    s.writeReg off v = s.fail .errAccess := by
  obtain ⟨-, e⟩ | ⟨hw', -⟩ | ⟨hw', -⟩ := writeReg_cases s off v
  · exact e
  · exact absurd hw' hw
  · exact absurd hw' hw

/-- A write of a RW register is rejected in a session. -/
theorem writeReg_of_busy {off : Byte} (hw : writableOffset off = true) {s : State} (hm : s.mode ≠ .idle) (v : Word) :
    s.writeReg off v = s.fail .errBusy := by
  obtain ⟨hw', -⟩ | ⟨-, -, e⟩ | ⟨-, hm', -⟩ := writeReg_cases s off v
  · exact absurd (hw.symm.trans hw') (by decide)
  · exact e
  · exact absurd hm' hm

/-- A write of a RW register is accepted in IDLE. -/
theorem writeReg_of_idle {off : Byte} (hw : writableOffset off = true) {s : State} (hm : s.mode = .idle) (v : Word) :
    s.writeReg off v = s.storeReg off v := by
  obtain ⟨hw', -⟩ | ⟨-, hm', -⟩ | ⟨-, -, e⟩ := writeReg_cases s off v
  · exact absurd (hw.symm.trans hw') (by decide)
  · exact absurd hm hm'
  · exact e

/-! What an accepted write leaves in the fields, in the numbers of the written value. -/

theorem storeReg_config (s : State) (v : Word) :
    s.storeReg 0x08 v = { s with
      frameSize := BitVec.ofNat 16 (v.toNat % 65536), allowSkip := v.toNat / 65536 % 2 == 1
      seqMode := if v.toNat / 131072 % 2 = 1 then .advance else .pin } := by
  have hskip : v.getLsbD 16 = (v.toNat / 65536 % 2 == 1) := getLsbD_eq_div_mod v 16
  have hbit : v.getLsbD 17 = (v.toNat / 131072 % 2 == 1) := getLsbD_eq_div_mod v 17
  have hseq : SeqMode.ofBit (v.getLsbD 17) = if v.toNat / 131072 % 2 = 1 then .advance else .pin := by
    simp only [SeqMode.ofBit, hbit, beq_iff_eq]
  rw [← lowHalf_eq, ← hskip, ← hseq]
  rfl

theorem storeReg_crc (s : State) (v : Word) :
    s.storeReg 0x0C v = { s with crc := BitVec.ofNat 16 (v.toNat % 65536) } := by rw [← lowHalf_eq]; rfl

theorem storeReg_bptr (s : State) (v : Word) :
    s.storeReg 0x10 v = { s with bptr := BitVec.ofNat 16 (v.toNat % 65536) } := by rw [← lowHalf_eq]; rfl

theorem storeReg_txIndex (s : State) (v : Word) :
    s.storeReg 0x18 v = { s with txIndex := BitVec.ofNat 16 (v.toNat % 65536) } := by rw [← lowHalf_eq]; rfl

theorem storeReg_txLength (s : State) (v : Word) :
    s.storeReg 0x1C v = { s with txLength := BitVec.ofNat 16 (v.toNat % 65536) } := by rw [← lowHalf_eq]; rfl

theorem storeReg_txTotal (s : State) (v : Word) : s.storeReg 0x20 v = { s with txTotal := v } := rfl

/-- A register write other than CMD is the next step. -/
theorem step_of_write {s : State} {rest : List Txn} {off : Byte} {v : Word} (h : s.host = .wr off v :: rest)
    (hne : off ≠ cmdOffset) : step s = .next ((s.issued rest).writeReg off v) :=
  (step_of_host h).trans (transact_wr hne v _)

/-- An accepted register write is the next step. -/
theorem step_of_accepted_write {s : State} {rest : List Txn} {off : Byte} {v : Word} (h : s.host = .wr off v :: rest)
    (hw : writableOffset off = true) (hm : s.mode = .idle) : step s = .next ((s.issued rest).storeReg off v) :=
  (step_of_write h (ne_cmdOffset_of_writable hw)).trans (congrArg _ (writeReg_of_idle (s := s.issued rest) hw hm v))

/-- Settles O10: CMD runs the word, and every other offset and mode is one branch of the register write. -/
theorem registerWriteFollowsTheAccessRights : Obligations.RegisterWriteFollowsTheAccessRights := by
  intro s rest off v hh
  refine ⟨?cmd, fun hne hro => ?access, fun hrw hm => ?busy, fun hm =>
    ⟨?config, ?crc, ?bptr, ?txIndex, ?txLength, ?txTotal⟩⟩
  case access =>
    exact (step_of_write hh hne).trans (congrArg _ (writeReg_of_not_writable (mt writableOffset_iff.mp hro) _ v))
  case busy =>
    have hw : writableOffset off = true := writableOffset_iff.mpr hrw
    exact (step_of_write hh (ne_cmdOffset_of_writable hw)).trans
      (congrArg _ (writeReg_of_busy (s := s.issued rest) hw hm v))
  all_goals rintro rfl
  case cmd => exact step_of_cmd hh
  all_goals rw [step_of_accepted_write hh rfl hm]
  case config => rw [storeReg_config]; rfl
  case crc => rw [storeReg_crc]; rfl
  case bptr => rw [storeReg_bptr]; rfl
  case txIndex => rw [storeReg_txIndex]; rfl
  case txLength => rw [storeReg_txLength]; rfl
  case txTotal => rw [storeReg_txTotal]; rfl

end Sys2Proof.Machine
end

section
/-! Errors and the absent trap machinery (60_exceptions.md): how a command ends, once for every command, and from it
the acceptance table of the modes (R99), the precision of errors (R98) and the source of each result code (R97). -/

namespace Sys2Proof.Machine

/-! ## The codes (R97, R102) -/

/-- Settles O12: each code is a case of its definition. -/
theorem fieldCodesMatchTheTables : Obligations.FieldCodesMatchTheTables :=
  ⟨rfl, rfl, rfl, rfl, fun _ _ _ _ => rfl⟩

/-- The errors of R98 are the codes from 0x2 on. -/
theorem Result.two_le_code_iff (r : Result) : 2 ≤ r.code.toNat ↔ r.isError = true := by
  cases r <;> decide

/-! ## No transaction stops a legal block (R98, R104, R112) -/

/-- Settles O8: with no transaction to issue, the step is the identity. -/
theorem silentHostHoldsTheState : Obligations.SilentHostHoldsTheState := fun _ => step_of_idle_host

/-- The sequencing registers of a legal session are in the ranges that the session's bytes need. -/
theorem exec_completes {s : State} (h : s.sessionLegal) (i : Instr) : ∃ t, exec i s = .next t := by
  obtain ⟨-, htx, hrx⟩ := h
  obtain ⟨-, hm, hr, -⟩ | ⟨-, hm, hr, -⟩ | ⟨-, -, e⟩ := exec_cases i s
  · obtain ⟨hc, -, hf, -, hpos, -⟩ := htx hm
    exact absurd ((s.encodeSessionInRange_iff.mpr ⟨hc, hf, hpos⟩).symm.trans hr) (by decide)
  · obtain ⟨hc, hf, -⟩ := hrx hm
    exact absurd ((s.decodeSessionInRange_iff.mpr (.inr ⟨hc, hf⟩)).symm.trans hr) (by decide)
  · exact ⟨_, e⟩

theorem runCommand_completes {s : State} (h : s.sessionLegal) (w : Word) : ∃ t, runCommand w s = .next t := by
  cases hd : decode w with
  | ok i => rw [runCommand_ok hd]; exact exec_completes h i
  | error e => exact ⟨_, runCommand_error hd s⟩

theorem transact_completes {s : State} (h : s.sessionLegal) (x : Txn) : ∃ t, transact x s = .next t := by
  cases x with
  | rd off => exact ⟨_, rfl⟩
  | reset => exact ⟨_, rfl⟩
  | wr off v =>
    by_cases ho : off = cmdOffset
    · rw [ho, transact_cmd]; exact runCommand_completes h v
    · exact ⟨_, transact_wr ho v s⟩

/-- Settles O17: of the transactions only a command can stop, and in a legal session none does. -/
theorem legalStatesNeverStop : Obligations.LegalStatesNeverStop := by
  intro s hs
  cases hh : s.host with
  | nil => exact ⟨s, step_of_idle_host hh⟩
  | cons x rest =>
    have hlegal : (s.issued rest).sessionLegal := hs.2
    rw [step_of_host hh]
    exact transact_completes hlegal x

@[simp] theorem writeReg_host (s : State) (off : Byte) (v : Word) : (s.writeReg off v).host = s.host := by
  obtain ⟨-, e⟩ | ⟨-, -, e⟩ | ⟨-, -, e⟩ := writeReg_cases s off v
  · rw [e]; rfl
  · rw [e]; rfl
  · obtain ⟨hhost, -⟩ := storeReg_frame s off v
    rw [e]; exact hhost

/-- A step takes the host's next transaction, and no other, off its list (R45). -/
theorem step_host {s t : State} {x : Txn} {rest : List Txn} (hh : s.host = x :: rest) (h : step s = .next t) :
    t.host = rest := by
  obtain ⟨hnil, -⟩ | ⟨rest', hcases⟩ := step_next_cases h
  · rw [hh] at hnil; cases hnil
  · obtain ⟨hh', rfl⟩ | ⟨off, hh', rfl⟩ | ⟨off, v, hh', -, rfl⟩ | ⟨w, e, hh', -, rfl⟩ | ⟨w, i, hh', -, he⟩ :=
      hcases <;> obtain ⟨-, rfl⟩ := List.cons.inj (hh.symm.trans hh')
    · rfl
    · rfl
    · exact writeReg_host _ off v
    · rfl
    · obtain ⟨-, -, -, -, -, -, -, hhost, -⟩ := (State.fixedFields_eq_iff _ t).mp (exec_fixedFields he)
      exact hhost

/-! ## The rows of R99's table -/

theorem commandGuard_eq_always {i : Instr} (h : i.op ∈ [.nop, .abort]) : commandGuard i = .always := by
  revert h; cases i <;> simp [commandGuard, Instr.op]

theorem commandGuard_eq_idleOnly {i : Instr} (h : i.op ∉ [.nop, .abort, .txByte, .rxByte, .rxEnd]) :
    commandGuard i = .idleOnly := by
  revert h; cases i <;> simp [commandGuard, Instr.op]

theorem commandGuard_eq_idleOnly_iff {i : Instr} :
    commandGuard i = .idleOnly ↔ i.op ∈ [.crcInit, .crcStep, .crcBulk, .bufSetptr, .bufWrite, .bufRead, .frmEncode,
      .frmDecode, .txStart, .rxStart] := by
  cases i <;> simp [commandGuard, Instr.op]

theorem commandGuard_eq_txOnly_iff {i : Instr} : commandGuard i = .txOnly ↔ i.op = .txByte := by
  cases i <;> simp [commandGuard, Instr.op]

theorem commandGuard_eq_rxOnly_iff {i : Instr} : commandGuard i = .rxOnly ↔ i.op ∈ [.rxByte, .rxEnd] := by
  cases i <;> simp [commandGuard, Instr.op]

theorem commandGuard_session_iff {i : Instr} :
    commandGuard i = .txOnly ∨ commandGuard i = .rxOnly ↔ i.op ∈ [.txByte, .rxByte, .rxEnd] := by
  rw [commandGuard_eq_txOnly_iff, commandGuard_eq_rxOnly_iff, ← List.mem_cons]

/-- The mode's answer is ERR_STATE to a session command in IDLE, and ERR_BUSY in a session to a command bound to
another mode. -/
theorem error?_eq_some_cases {a : Access} {m : Mode} {r : Result} (h : a.error? m = some r) :
    (r = .errState ∧ (a = .txOnly ∨ a = .rxOnly) ∧ m = .idle) ∨ (r = .errBusy ∧ a ≠ .always ∧ m ≠ .idle) := by
  cases a with
  | always => cases h
  | idleOnly =>
    rw [error?_idleOnly] at h
    split_ifs at h with hm
    cases h
    exact .inr ⟨rfl, by decide, hm⟩
  | txOnly =>
    rw [error?_txOnly] at h
    split_ifs at h with _ hm <;> cases h
    · exact .inl ⟨rfl, .inl rfl, hm⟩
    · exact .inr ⟨rfl, by decide, hm⟩
  | rxOnly =>
    rw [error?_rxOnly] at h
    split_ifs at h with _ hm <;> cases h
    · exact .inl ⟨rfl, .inr rfl, hm⟩
    · exact .inr ⟨rfl, by decide, hm⟩

/-! ## How a command ends -/

/-- Why command `i` ends with error `r` in `s`: the mode does not accept it, or a check of its own rule fails (R97, R99
to R101). The codes that no command reports as an error have no cause. -/
def ErrorCause (i : Instr) (s : State) : Result → Prop
  | .ok | .crcMismatch | .errOpcode | .errAccess => False
  | .errState => (commandGuard i).error? s.mode = some .errState
  | .errBusy => (commandGuard i).error? s.mode = some .errBusy
  | .errConfig => i.op ∈ [.frmEncode, .frmDecode, .txStart, .rxStart] ∧ s.configValid = false
  | .errRange =>
    (∃ n, i = .crcBulk n ∧ s.params.fbufSize < s.bptr.toNat + n.toNat) ∨
      i.op ∈ [.bufWrite, .bufRead] ∧ s.params.fbufSize ≤ s.bptr.toNat
  | .errLength => i = .frmEncode ∧ s.capacity < s.txLength.toNat
  | .errCapacity => i = .txStart ∧ Config.maxFrames * s.capacity < s.txTotal.toNat

/-- The ways command `i` takes `s` to `t`: with OK, with the outcome CRC_MISMATCH of a frame check, or with an error,
which then has a cause and writes RESULT alone. -/
inductive CommandEnds (i : Instr) (s t : State) : Prop
  | ok (h : t.result = .ok)
  | mismatch (hi : i = .frmDecode) (hc : s.configValid = true) (hk : s.frameCheck.ok = false) (ht : t = frmDecode s)
  | error {r : Result} (h : ErrorCause i s r) (ht : t = s.setResult r)

theorem txByte_result (b : Byte) (s : State) : (txByte b s).result = .ok := by
  obtain ⟨-, h⟩ | ⟨-, h⟩ | ⟨-, h⟩ := txByte_cases b s <;> rw [h] <;> rfl

theorem rxByte_result (b : Byte) (s : State) : (rxByte b s).result = .ok := by
  obtain ⟨-, h⟩ | ⟨-, h⟩ | ⟨-, h⟩ := rxByte_cases b s <;> rw [h] <;> rfl

theorem crcBulk_ends (n : Half) (s : State) : CommandEnds (.crcBulk n) s (crcBulk n s) := by
  unfold crcBulk
  split_ifs with h
  · exact .error (r := .errRange) (.inl ⟨n, rfl, h⟩) rfl
  · exact .ok rfl

theorem bufWrite_ends (b : Byte) (s : State) : CommandEnds (.bufWrite b) s (bufWrite b s) := by
  obtain hr | hr := Nat.lt_or_ge s.bptr.toNat s.params.fbufSize
  · rw [bufWrite_of_inRange b hr]; exact .ok rfl
  · exact .error (r := .errRange) (.inr ⟨by simp [Instr.op], hr⟩) (bufWrite_of_outOfRange b hr)

theorem bufRead_ends (s : State) : CommandEnds .bufRead s (bufRead s) := by
  obtain hr | hr := Nat.lt_or_ge s.bptr.toNat s.params.fbufSize
  · rw [bufRead_of_inRange hr]; exact .ok rfl
  · exact .error (r := .errRange) (.inr ⟨by simp [Instr.op], hr⟩) (bufRead_of_outOfRange hr)

theorem frmEncode_ends (s : State) : CommandEnds .frmEncode s (frmEncode s) := by
  cases hc : s.configValid with
  | false => exact .error (r := .errConfig) ⟨by simp [Instr.op], hc⟩ (frmEncode_of_invalid hc)
  | true =>
    obtain hl | hl := Nat.lt_or_ge s.capacity s.txLength.toNat
    · exact .error (r := .errLength) ⟨rfl, hl⟩ (frmEncode_of_tooLong hc hl)
    · rw [frmEncode_of_fits hc hl]; exact .ok rfl

theorem frmDecode_ends (s : State) : CommandEnds .frmDecode s (frmDecode s) := by
  cases hc : s.configValid with
  | false => exact .error (r := .errConfig) ⟨by simp [Instr.op], hc⟩ (frmDecode_of_invalid hc)
  | true =>
    cases hk : s.frameCheck.ok with
    | false => exact .mismatch rfl hc hk rfl
    | true => exact .ok (by rw [frmDecode_of_ok hc hk])

theorem txStart_ends (s : State) : CommandEnds .txStart s (txStart s) := by
  cases hc : s.configValid with
  | false => exact .error (r := .errConfig) ⟨by simp [Instr.op], hc⟩ (txStart_of_invalid hc)
  | true =>
    obtain hn | hn := Nat.lt_or_ge Config.maxFrames s.framesNeeded
    · have htotal : Config.maxFrames * s.capacity < s.txTotal.toNat :=
        Nat.lt_of_not_ge (mt (State.framesNeeded_le_iff hc).mpr hn.not_ge)
      exact .error (r := .errCapacity) ⟨rfl, htotal⟩ (txStart_of_tooMany hc hn)
    · rw [txStart_of_fits hc hn]; exact .ok (by split_ifs <;> rfl)

theorem rxStart_ends (s : State) : CommandEnds .rxStart s (rxStart s) := by
  cases hc : s.configValid with
  | false => exact .error (r := .errConfig) ⟨by simp [Instr.op], hc⟩ (rxStart_of_invalid hc)
  | true => rw [rxStart_of_valid hc]; exact .ok rfl

theorem commandRule_ends (i : Instr) (s : State) : CommandEnds i s (commandRule i s) := by
  cases i with
  | crcBulk n => exact crcBulk_ends n s
  | bufWrite b => exact bufWrite_ends b s
  | bufRead => exact bufRead_ends s
  | frmEncode => exact frmEncode_ends s
  | frmDecode => exact frmDecode_ends s
  | txStart => exact txStart_ends s
  | rxStart => exact rxStart_ends s
  | txByte b => exact .ok (txByte_result b s)
  | rxByte b => exact .ok (rxByte_result b s)
  | nop | crcInit | crcStep _ | bufSetptr _ | rxEnd | abort => exact .ok rfl

/-- Every command that completes ends in one of the three ways, whether it ran its rule or the mode refused it. -/
theorem exec_ends {i : Instr} {s t : State} (h : exec i s = .next t) : CommandEnds i s t := by
  obtain ⟨-, rfl⟩ | ⟨r, hr, rfl⟩ := exec_next_cases h
  · exact commandRule_ends i s
  · refine .error (r := r) ?_ rfl
    obtain ⟨rfl, -⟩ | ⟨rfl, -⟩ := error?_eq_some_cases hr
    · exact hr
    · exact hr

/-- A command that ends with an error has a cause for it, and this is its one effect. -/
theorem CommandEnds.errorCause {i : Instr} {s t : State} (h : CommandEnds i s t) (he : t.result.isError = true) :
    ErrorCause i s t.result ∧ t = s.setResult t.result := by
  cases h with
  | ok h => rw [h] at he; cases he
  | mismatch hi hc hk ht => rw [ht, frmDecode_of_mismatch hc hk] at he; cases he
  | error h ht => subst ht; exact ⟨h, rfl⟩

theorem CommandEnds.cause_of_result {i : Instr} {s t : State} (h : CommandEnds i s t) {r : Result} (hr : t.result = r)
    (he : r.isError = true) : ErrorCause i s r := by
  subst hr; exact (h.errorCause he).1

/-- CRC_MISMATCH is FRM_DECODE's, of a frame whose checksum is not the stored one. -/
theorem CommandEnds.of_crcMismatch {i : Instr} {s t : State} (h : CommandEnds i s t) (hr : t.result = .crcMismatch) :
    i = .frmDecode ∧ s.frameCheck.ok = false ∧
      t = { s with
        rxStored := s.frameCheck.stored, rxCalc := s.frameCheck.computed, crc := s.frameCheck.computed
        lenOver := false, result := .crcMismatch } := by
  cases h with
  | ok h => rw [h] at hr; cases hr
  | mismatch hi hc hk ht => exact ⟨hi, hk, ht.trans (frmDecode_of_mismatch hc hk)⟩
  | error h ht => subst ht; subst hr; exact h.elim

/-! ## The acceptance table (R99) -/

/-- A command that its mode accepts ends with neither of the mode's two codes. -/
theorem CommandEnds.result_of_accepted {i : Instr} {s t : State} (h : CommandEnds i s t)
    (ha : (commandGuard i).error? s.mode = none) : t.result ≠ .errBusy ∧ t.result ≠ .errState := by
  constructor <;> intro hr
  · cases ha.symm.trans (h.cause_of_result hr rfl)
  · cases ha.symm.trans (h.cause_of_result hr rfl)

/-- Settles O19: each row of the table is a guard, and each of its cells the guard's answer. -/
theorem modeAcceptanceTable : Obligations.ModeAcceptanceTable := by
  intro i s
  refine ⟨fun hi hm => ?bound, fun hi hm => ?noSession, fun hi hm => ?txInRx, fun hi hm => ?rxInTx,
    fun hi t ht => (exec_ends ht).result_of_accepted ?accepted⟩
  case bound =>
    refine exec_of_busy (commandGuard_eq_idleOnly_iff.mpr hi) fun hidle => ?_
    rw [hidle] at hm
    simp at hm
  case noSession =>
    apply exec_of_error
    obtain hg | hg := commandGuard_session_iff.mpr hi <;> rw [hg, hm] <;> rfl
  case txInRx => exact exec_of_error (by rw [commandGuard_eq_txOnly_iff.mpr hi, hm]; rfl)
  case rxInTx => exact exec_of_error (by rw [commandGuard_eq_rxOnly_iff.mpr hi, hm]; rfl)
  case accepted =>
    obtain hi | ⟨hi, hm⟩ | ⟨hi, hm⟩ | ⟨hi, hm⟩ := hi
    · rw [commandGuard_eq_always hi]; rfl
    · rw [commandGuard_eq_idleOnly hi, hm]; rfl
    · rw [commandGuard_eq_txOnly_iff.mpr hi, hm]; rfl
    · rw [commandGuard_eq_rxOnly_iff.mpr hi, hm]; rfl

/-! ## Errors are precise (R98) -/

theorem runCommand_error_writes {w : Word} {s t : State} (h : runCommand w s = .next t)
    (he : t.result.isError = true) : t = s.setResult t.result := by
  cases hd : decode w with
  | error e => rw [runCommand_error hd] at h; cases h; rfl
  | ok i => rw [runCommand_ok hd] at h; exact ((exec_ends h).errorCause he).2

/-- Settles O20: an error is RESULT's write alone, CRC_MISMATCH is a frame check's, and neither stops a legal block. -/
theorem errorsArePrecise : Obligations.ErrorsArePrecise := by
  refine ⟨fun w s t h he => runCommand_error_writes h (t.result.two_le_code_iff.mp he),
    fun s t off v rest ho hh h => ?write, fun i s t h hr => ?mismatch, fun s x rest hs hh => ?goesOn⟩
  case write =>
    obtain rfl := Host.Outcome.next.inj (h.symm.trans (step_of_write hh ho))
    obtain ⟨-, e⟩ | ⟨-, -, e⟩ | ⟨-, -, e⟩ := writeReg_cases (s.issued rest) off v
    · rw [e]; exact .inl ⟨rfl, (Result.two_le_code_iff _).mpr rfl⟩
    · rw [e]; exact .inl ⟨rfl, (Result.two_le_code_iff _).mpr rfl⟩
    · obtain ⟨-, -, hresult, -⟩ := storeReg_frame (s.issued rest) off v
      rw [e]; exact .inr hresult
  case mismatch =>
    obtain ⟨hi, hk, rfl⟩ := (exec_ends h).of_crcMismatch hr
    refine ⟨hi, fun heq => ?_, rfl, rfl⟩
    rw [(frameCheck_ok_iff s).mpr heq.symm] at hk
    cases hk
  case goesOn =>
    obtain ⟨t, ht⟩ := legalStatesNeverStop s hs
    exact ⟨t, ht, step_host hh ht⟩

/-! ## The source of each result code (R97) -/

/-- Settles O21: each error of a decoded word has its cause, and ERR_OPCODE and ERR_ACCESS have none. -/
theorem resultCodesComeFromTheirCommands : Obligations.ResultCodesComeFromTheirCommands := by
  intro w s t h
  cases hd : decode w with
  | error e =>
    rw [runCommand_error hd] at h
    cases h
    exact ⟨⟨fun _ => ⟨e, rfl⟩, fun _ => rfl⟩, by simp, fun i hi => by cases hi⟩
  | ok i =>
    rw [runCommand_ok hd] at h
    have hends : CommandEnds i s t := exec_ends h
    refine ⟨⟨fun hr => (hends.cause_of_result hr rfl).elim, fun ⟨e, he⟩ => by cases he⟩,
      fun hr => hends.cause_of_result hr rfl, ?_⟩
    rintro _ ⟨⟩
    refine ⟨fun hr => (hends.of_crcMismatch hr).1, fun hr => ?state, fun hr => ?busy, fun hr => ?config,
      fun hr => hends.cause_of_result hr rfl, fun hr => hends.cause_of_result hr rfl,
      fun hr => hends.cause_of_result hr rfl⟩
    case state =>
      obtain ⟨-, hg, hm⟩ | ⟨hbusy, -⟩ := error?_eq_some_cases (hends.cause_of_result hr rfl)
      · exact ⟨commandGuard_session_iff.mp hg, hm⟩
      · cases hbusy
    case busy =>
      obtain ⟨hstate, -⟩ | ⟨-, hg, hm⟩ := error?_eq_some_cases (hends.cause_of_result hr rfl)
      · cases hstate
      · exact ⟨mt commandGuard_eq_always hg, hm⟩
    case config =>
      obtain ⟨hi, hc⟩ := hends.cause_of_result hr rfl
      exact ⟨hi, s.configValid_eq_false_iff.mp hc⟩

end Sys2Proof.Machine
end

section
/-! Reset and hazards (70_reset_and_hazards.md): the table of reset values (R113), that reset is a legal state, and that
a host's transactions run one step each, with nothing between them (R115, R125). -/

namespace Sys2Proof.Machine

/-! ## Reset (R113) -/

/-- Bit 0 of CRC_POLY is fixed to 1, so whatever the open parameters are, they are in R8's ranges. -/
theorem params_legal : Config.params.legal := by
  have hbit : Config.params.crcPoly.getLsbD 0 = true := BitVec.getLsbD_append.trans rfl
  have hsize : Config.params.fbufSize = 1024 + Config.fbufExtra.val := rfl
  have hextra : Config.fbufExtra.val < 64512 := Config.fbufExtra.isLt
  refine ⟨by omega, by omega, fun hzero => ?_, hbit⟩
  rw [hzero] at hbit
  cases hbit

/-- Settles O15: the parameters are legal, no cell is listed yet, and no session is open. -/
theorem resetMeetsTheInvariant : Obligations.ResetMeetsTheInvariant :=
  ⟨⟨params_legal, length_resetDraw _ _, reset_memory_wf, fun _ hc => nomatch hc⟩,
    State.sessionLegal_of_idle rfl rfl rfl⟩

theorem step_of_reset {s : State} {rest : List Txn} (h : s.host = .reset :: rest) :
    step s = .next (s.issued rest).platformReset := step_of_host h

/-- Settles O13: the first reset and a later one answer the same register values, field by field. -/
theorem resetSetsTheTablesValues : Obligations.ResetSetsTheTablesValues := by
  refine ⟨?registers, fun s rest hh => ⟨_, step_of_reset hh, rfl⟩⟩
  rintro t (rfl | ⟨s, rest, hh, hstep⟩)
  case inl => simp [State.reset, Config.frameSizeDefault, Config.crcInit]
  case inr =>
    cases (step_of_reset hh).symm.trans hstep
    simp

/-! ## Each transaction is one step (R115, R125) -/

/-- While the host issues nothing, no number of steps changes anything (R112). -/
theorem run_of_idle_host {s : State} (h : s.host = []) (n : Nat) : Sys2Proof.core.run n s = .next s := by
  induction n with
  | zero => exact run_zero s
  | succ n ih => exact (run_succ n (step_of_idle_host h)).trans ih

/-- A legal block takes any transactions of its host, one step each, and stays legal. -/
theorem run_transactions {s : State} {xs rest : List Txn} (hs : s.Inv) (hh : s.host = xs ++ rest) :
    ∃ t, Sys2Proof.core.run xs.length s = .next t ∧ t.host = rest ∧ t.Inv := by
  induction xs generalizing s with
  | nil => exact ⟨s, run_zero s, hh, hs⟩
  | cons x xs ih =>
    obtain ⟨u, hu⟩ := legalStatesNeverStop s hs
    obtain ⟨t, ht, htail⟩ := ih (stepKeepsTheInvariant s u hs hu) (step_host hh hu)
    exact ⟨t, (run_succ xs.length hu).trans ht, htail⟩

/-- Settles O60: the run of `xs` ends legally at `rest`, and where that is empty the block then holds its state. -/
theorem eachTransactionIsOneUntimedStep : Obligations.EachTransactionIsOneUntimedStep := by
  intro s xs rest hs hh
  obtain ⟨t, ht, hrest, hinv⟩ := run_transactions hs hh
  exact ⟨t, ht, hrest, hinv, fun hnil n => (run_add xs.length n ht).trans (run_of_idle_host (hrest.trans hnil) n)⟩

end Sys2Proof.Machine
end
